-- ==== Sys2Proof/Word.lean ====
section
/-! DEFINITION. The word types of the block and the level of the input line (spec/00_scope.md rules R7 to R9).
Only the types and their plainest readings stand here; every computation a test could show wrong stands in
`Decode.lean` or under `Machine/`. -/

namespace Sys2Proof

/-- An 8-bit value: a frame byte, a command code (R15, R44). -/
abbrev Byte := BitVec 8

/-- The 32-bit frame read as one word, `frame = {byte3, byte2, byte1, byte0}` (R30). -/
abbrev FrameWord := BitVec 32

/-- A 16-bit unsigned duty cycle (R16, R25). -/
abbrev Duty := BitVec 16

/-- The level of the infrared line at one tick: x(t) = 0 is low, 1 is high (R9). -/
inductive Level where
  | low
  | high
  deriving DecidableEq, Repr, Inhabited

/-- The level as the one-bit port value x(t) (R9, R24). -/
def Level.bit : Level → BitVec 1
  | .low => 0#1
  | .high => 1#1

/-- What the two input ports that carry data show at one tick (R24); the third, `clk`, is the step itself. -/
structure Pins where
  /-- `rst`: synchronous reset, active high (R114). -/
  rst : Bool
  /-- `ir_in`: the sampled line level x(t) (R9). -/
  ir : Level
  deriving DecidableEq, Repr, Inhabited

end Sys2Proof
end

