-- ==== Sys2Proof/Config.lean ====
section
/-! DEFINITION. What the implementation fixes: the protocol profile (spec/00_scope.md rule R5, hardwired by
spec/10_state.md rule R21), the eight command codes (spec/30_encoding.md rule R44), and the free values, which are
the input ports beyond what `State` lists (R4: any input trace is admitted, under no law). -/

namespace Sys2Proof.Config

/-- The parameters of R5, in the table's order. Times are in ticks of one microsecond (R9). -/
structure Profile where
  tEdgeTo : Nat
  tLeadTo : Nat
  tLeadMin : Nat
  tLeadMax : Nat
  tSpaceTo : Nat
  tSpaceMin : Nat
  tSpaceMax : Nat
  tBitLowTo : Nat
  tBitHighTo : Nat
  tBitMin : Nat
  tOne : Nat
  nBits : Nat
  nBytes : Nat
  checkSum : Nat
  idleLimit : Nat
  pauseUs : Nat
  actionGapUs : Nat
  speedW : Nat
  speedLimit : Nat
  speedReset : Nat
  speedStep : Nat
  turnSpeed : Nat
  codeW : Nat
  tickUs : Nat
  elapsedW : Nat
  bitIdxW : Nat
  idleW : Nat
  gapW : Nat
  measJitterUs : Nat
  deriving DecidableEq, Repr

/-- The values this hardware takes (R5), "hardwired read-only constants" (R21). Assumption log 7. -/
@[reducible] def profile : Profile where
  tEdgeTo := 150000
  tLeadTo := 12000
  tLeadMin := 8000
  tLeadMax := 10000
  tSpaceTo := 7000
  tSpaceMin := 3500
  tSpaceMax := 5000
  tBitLowTo := 1000
  tBitHighTo := 2500
  tBitMin := 200
  tOne := 1200
  nBits := 32
  nBytes := 4
  checkSum := 0xFF
  idleLimit := 800
  pauseUs := 1000
  actionGapUs := 0
  speedW := 16
  speedLimit := 65536
  speedReset := 32768
  speedStep := 6553
  turnSpeed := 13107
  codeW := 8
  tickUs := 1
  elapsedW := 18
  bitIdxW := 5
  idleW := 10
  gapW := 10
  measJitterUs := 0

/-- R44, row FORWARD. -/
def codeForward : Byte := 0x18#8
/-- R44, row LEFT. -/
def codeLeft : Byte := 0x08#8
/-- R44, row STOP. -/
def codeStop : Byte := 0x1C#8
/-- R44, row RIGHT. -/
def codeRight : Byte := 0x5A#8
/-- R44, row BACKWARD. -/
def codeBackward : Byte := 0x52#8
/-- R44, row RESET_SPEED. -/
def codeResetSpeed : Byte := 0x09#8
/-- R44, row INC_SPEED. -/
def codeIncSpeed : Byte := 0x15#8
/-- R44, row DEC_SPEED. -/
def codeDecSpeed : Byte := 0x07#8

/-- The eight listed codes, in the row order of R44. -/
def listedCodes : List Byte :=
  [codeForward, codeLeft, codeStop, codeRight, codeBackward, codeResetSpeed, codeIncSpeed, codeDecSpeed]

/-- FREE VALUE (assumption log 1): the level of `ir_in` at a tick for which `State.inputs` lists nothing. R4: "a
model takes the whole level trace x as a free input of the run (any trace is admitted, under no law)". -/
opaque freeLine : Nat → Level

/-- FREE VALUE (assumption log 1): the level of `rst` at a tick for which `State.inputs` lists nothing. -/
opaque freeReset : Nat → Bool

end Sys2Proof.Config
end

