-- ==== Sys2Proof/Syntax.lean ====
section
/-! DEFINITION. The instruction set: the nine rows of the command map (spec/30_encoding.md rule R44,
spec/opcode_table.json). R1: the block's "instruction set" is "the set of eight command codes of §4.3 plus the
catch-all unknown code". -/

namespace Sys2Proof

/-- One constructor per row of the command map, in the row order of R44. -/
inductive Instr where
  /-- FORWARD, 0x18 (R80). -/
  | forward
  /-- LEFT, 0x08 (R81). -/
  | left
  /-- STOP, 0x1C (R82). -/
  | stop
  /-- RIGHT, 0x5A (R83). -/
  | right
  /-- BACKWARD, 0x52 (R84). -/
  | backward
  /-- RESET_SPEED, 0x09 (R85). -/
  | resetSpeed
  /-- INC_SPEED, 0x15 (R86). -/
  | incSpeed
  /-- DEC_SPEED, 0x07 (R87). -/
  | decSpeed
  /-- UNKNOWN, any of the 248 other codes, which is its operand (R88). -/
  | unknown (code : Byte)
  deriving DecidableEq, Repr

end Sys2Proof
end

