-- ==== Sys2Proof/WellFormed.lean ====
section
/-! DEFINITION. The checks on what the other files take as given: an instruction is one a code spells
(spec/30_encoding.md rule R44) and a profile meets the conditions of spec/00_scope.md rule R6. -/

namespace Sys2Proof

/-- An instruction some CMD8 code spells: UNKNOWN carries a code "matching none" of the eight listed (R88). -/
def Instr.wellFormed : Instr → Bool
  | .unknown code => !Config.listedCodes.contains code
  | .forward | .left | .stop | .right | .backward | .resetSpeed | .incSpeed | .decSpeed => true

namespace Config.Profile

/-- R6(a). -/
def leadOk (p : Profile) : Bool :=
  decide (0 < p.tLeadMin ∧ p.tLeadMin ≤ p.tLeadMax ∧ p.tLeadMax ≤ p.tLeadTo)

/-- R6(b). -/
def spaceOk (p : Profile) : Bool :=
  decide (0 < p.tSpaceMin ∧ p.tSpaceMin ≤ p.tSpaceMax ∧ p.tSpaceMax ≤ p.tSpaceTo)

/-- R6(c). -/
def bitOk (p : Profile) : Bool :=
  decide (0 < p.tBitMin ∧ p.tBitMin ≤ p.tOne ∧ p.tOne < p.tBitHighTo)

/-- R6(d); T_EDGE_TO >= 0 holds of every natural number. -/
def bitLowOk (p : Profile) : Bool :=
  decide (1 ≤ p.tBitLowTo)

/-- R6(e). -/
def elapsedOk (p : Profile) : Bool :=
  [p.tEdgeTo, p.tLeadTo, p.tSpaceTo, p.tBitLowTo, p.tBitHighTo].all fun t => decide (t + 1 < 2 ^ p.elapsedW)

/-- R6(f). -/
def speedOk (p : Profile) : Bool :=
  decide (p.speedLimit = 2 ^ p.speedW ∧ p.speedReset < p.speedLimit ∧ p.speedStep < p.speedLimit ∧
    p.turnSpeed < p.speedLimit)

/-- R6(g). -/
def idleOk (p : Profile) : Bool :=
  decide (p.idleLimit + 1 < 2 ^ p.idleW)

/-- R6(h). -/
def gapOk (p : Profile) : Bool :=
  decide (p.pauseUs < 2 ^ p.gapW ∧ p.actionGapUs < 2 ^ p.gapW)

/-- R6(i). -/
def bitsOk (p : Profile) : Bool :=
  decide (p.nBits = 8 * p.nBytes ∧ p.nBits ≤ 2 ^ p.bitIdxW)

/-- R6, all nine conditions. -/
def wellFormed (p : Profile) : Bool :=
  p.leadOk && p.spaceOk && p.bitOk && p.bitLowOk && p.elapsedOk && p.speedOk && p.idleOk && p.gapOk && p.bitsOk

end Config.Profile

end Sys2Proof
end

