-- ==== Sys2Proof/Decode.lean ====
section
/-! DEFINITION. The decoder, total on any bytes and rejecting by name, and after it the encoder. A command comes as
the 32-bit frame FRAME32 (spec/30_encoding.md rule R41): address, its complement, command, its complement, in arrival
order, least significant bit first. The CMD8 code selects exactly one row of the command map (R44). -/

namespace Sys2Proof

/-- Why a frame spells no command. No command CODE is ever rejected: "No command code is illegal" (R45). -/
inductive FrameError where
  /-- The address pair does not sum to 0xFF (R69, cause 9 of R101). -/
  | addrCheck
  /-- The command pair does not sum to 0xFF (R69, cause 10 of R101). -/
  | cmdCheck
  deriving DecidableEq, Repr

/-- Why a list of bytes spells no command. -/
inductive DecodeError where
  /-- Not the four bytes of a frame (R39: "There is one frame length"). -/
  | wrongLength
  /-- Four bytes that fail the checksum of stage 5. -/
  | badFrame (reason : FrameError)
  deriving DecidableEq, Repr

/-- Byte k of the frame, `frame[8k+7 : 8k]` (R30). -/
def frameByte (k : Nat) (f : FrameWord) : Byte :=
  f.extractLsb' (8 * k) 8

/-- The four bytes in arrival order as one word, `{byte3, byte2, byte1, byte0}`: byte k at bits 8k+7 to 8k (R30). -/
def packFrame (b0 b1 b2 b3 : Byte) : FrameWord :=
  b0.setWidth 32 ||| b1.setWidth 32 <<< 8 ||| b2.setWidth 32 <<< 16 ||| b3.setWidth 32 <<< 24

/-- `frame[i] <- b`: bit i is replaced, "the other 31 bits are unchanged" (R68). -/
def replaceBit (f : FrameWord) (i : BitVec 5) (b : Bool) : FrameWord :=
  if b then f ||| (1#32 <<< i.toNat) else f &&& ~~~(1#32 <<< i.toNat)

/-- "(byte-wise, mod-256 addition)": whether a byte and its paired byte sum to 0xFF (R69). -/
def pairChecks (b c : Byte) : Bool :=
  decide ((b.toNat + c.toNat) % 256 = Config.profile.checkSum)

/-- The eight listed rows of the command map (R44). -/
def commandTable : List (Byte × Instr) :=
  [(Config.codeForward, .forward), (Config.codeLeft, .left), (Config.codeStop, .stop), (Config.codeRight, .right),
   (Config.codeBackward, .backward), (Config.codeResetSpeed, .resetSpeed), (Config.codeIncSpeed, .incSpeed),
   (Config.codeDecSpeed, .decSpeed)]

/-- R44: "compare CMD with each listed code, take the match, else UNKNOWN". -/
def decodeCommand (c : Byte) : Instr :=
  (commandTable.lookup c).getD (.unknown c)

/-- The command code of a frame, CMD = `frame[23:16]` (R43). -/
def commandByte (f : FrameWord) : Byte :=
  frameByte 2 f

/-- Stage 5 and the command map on a whole frame: the address pair is tested first (R69, R104), the address itself is
not filtered (R46), and the third byte is the command code (R71). -/
def decodeFrame (f : FrameWord) : Except FrameError Instr :=
  if !pairChecks (frameByte 0 f) (frameByte 1 f) then .error .addrCheck
  else if !pairChecks (frameByte 2 f) (frameByte 3 f) then .error .cmdCheck
  else .ok (decodeCommand (commandByte f))

/-- The decoder on any list of bytes in arrival order. -/
def decode : List Byte → Except DecodeError Instr
  | [b0, b1, b2, b3] =>
    match decodeFrame (packFrame b0 b1 b2 b3) with
    | .ok i => .ok i
    | .error r => .error (.badFrame r)
  | _ => .error .wrongLength

/-- The CMD8 code of an instruction (R44). -/
def encode : Instr → Byte
  | .forward => Config.codeForward
  | .left => Config.codeLeft
  | .stop => Config.codeStop
  | .right => Config.codeRight
  | .backward => Config.codeBackward
  | .resetSpeed => Config.codeResetSpeed
  | .incSpeed => Config.codeIncSpeed
  | .decSpeed => Config.codeDecSpeed
  | .unknown code => code

/-- The frame of `NEC(A, C)`: `{~C, C, ~A, A}` (R41, R52). -/
def necFrame (a c : Byte) : FrameWord :=
  packFrame a (~~~a) c (~~~c)

/-- The frame that carries an instruction from a transmitter of address `a`. -/
def encodeFrame (a : Byte) (i : Instr) : FrameWord :=
  necFrame a (encode i)

/-- The same frame as its four bytes in arrival order (R41). -/
def encodeBytes (a : Byte) (i : Instr) : List Byte :=
  [a, ~~~a, encode i, ~~~encode i]

/-- The instruction the decoder reads from an opcode-table word. A row of the table is one CMD8 byte, and CMD8 reaches
the decoder as the command byte of a frame, here one of address 0 (assumption log 12). -/
def decodeTableWord (nbits w : Nat) : Option Instr :=
  if nbits = Config.profile.codeW ∧ w < 2 ^ Config.profile.codeW then
    let c := BitVec.ofNat 8 w
    match decode [0x00#8, 0xFF#8, c, ~~~c] with
    | .ok i => some i
    | .error _ => none
  else none

end Sys2Proof
end

