-- ==== Sys2Proof/Machine/State.lean ====
section
/-! DEFINITION. The state of the block as plain data: the seven registers of spec/10_state.md rule R11, what the output
ports show of the tick just done (R25), and what the environment is going to drive on the input ports (R24). The
reasons a step can stop and the state after reset (spec/70_reset_and_hazards.md rule R114) stand here too. -/

namespace Sys2Proof.Machine

/-- `phase` (R12). The encodings 6 and 7 are never written, so they are left out of the type, as R12 allows. -/
inductive Phase where
  /-- 0: stage 1, Idle to Lead Edge. -/
  | wEdge
  /-- 1: stage 2, Lead Pulse. -/
  | wLead
  /-- 2: stage 3, Space. -/
  | wSpace
  /-- 3: stage 4, first wait of a bit. -/
  | wBitLow
  /-- 4: stage 4, high-pulse measurement. -/
  | wBitHigh
  /-- 5: the pause, or the action gap. -/
  | gap
  deriving DecidableEq, Repr

/-- The failure causes of R101, with the bit index of causes 6 to 8. Ghost data (R102): no port shows them. -/
inductive Cause where
  | edgeTimeout
  | leadTimeout
  | leadWindow
  | spaceTimeout
  | spaceWindow
  | bitLowTimeout (i : BitVec 5)
  | bitHighTimeout (i : BitVec 5)
  | bitShort (i : BitVec 5)
  | addrCheck
  | cmdCheck
  deriving DecidableEq, Repr

/-- The five actuation commands (R48); `act_op` 5 to 7 are never produced. -/
inductive ActOp where
  | stop
  | forward
  | backward
  | left
  | right
  deriving DecidableEq, Repr

/-- An `act` event (R25, R48). -/
structure ActEvent where
  op : ActOp
  duty : Duty
  deriving DecidableEq, Repr

/-- The action a notification names, in the row order of R44 (R49); `note_action` 9 to 15 are never produced. -/
inductive NoteAction where
  | forward
  | left
  | stop
  | right
  | backward
  | resetSpeed
  | incSpeed
  | decSpeed
  | unknown
  deriving DecidableEq, Repr

/-- A `note` event (R25, R49). -/
structure NoteEvent where
  action : NoteAction
  code : Byte
  deriving DecidableEq, Repr

/-- A `dec` event: the result of an attempt, a command code or the failure sentinel (R20, R50). -/
inductive DecEvent where
  | ok (code : Byte)
  | fail
  deriving DecidableEq, Repr

/-- A run of equal pin values, the `H<n>` and `L<n>` of R51: this tick and then `more` further ticks, for ever where
`more` is `none` (`H*`, `L*`). A run is never empty. -/
structure Run where
  rst : Bool
  ir : Level
  more : Option Nat
  deriving DecidableEq, Repr

/-- The whole state. The first seven fields are the registers of R11. The next three are the output ports at the tick
just done, where `none` is a valid bit of 0 (R25, R26). `cause` is the ghost label of R101. `inputs` and `clock` are the
MODEL's own: the environment's input trace (assumption log 1) and the count of steps taken (assumption log 2). -/
structure State where
  /-- Which wait or gap the sequencer is in (R12). -/
  phase : Phase
  /-- Elapsed ticks of the current wait (R13). -/
  e : BitVec 18
  /-- Arrival index of the data bit being read (R14). -/
  bitIdx : BitVec 5
  /-- The frame being assembled (R15). -/
  frame : FrameWord
  /-- Speed State (R16). -/
  speed : Duty
  /-- Idle Counter (R17). -/
  idle : BitVec 10
  /-- Ticks left in a pause or action gap (R18). -/
  gap : BitVec 10
  /-- Ports `dec_valid`, `dec_ok`, `dec_code` (R25). -/
  dec : Option DecEvent
  /-- Ports `act_valid`, `act_op`, `act_duty` (R25). -/
  act : Option ActEvent
  /-- Ports `note_valid`, `note_action`, `note_code` (R25). -/
  note : Option NoteEvent
  /-- Ghost: why the attempt that resolved at this tick failed (R101, R102). -/
  cause : Option Cause
  /-- The pin values the environment drives from the next tick on; beyond the list they are free values. -/
  inputs : List Run
  /-- Steps taken since the run began; it indexes the free pin values only. -/
  clock : Nat
  deriving DecidableEq, Repr

/-- Where a step stops. The block has no trap and no halt state (R99), so each reason belongs to states no run from
reset reaches; under the invariant of `Safety.lean` none is raised. -/
inductive Fault where
  /-- Raised by a wait tick whose `e + 1` does not fit 18 bits: "no register write in this spec truncates" (R8), and `e`
  never holds such a value (R13). Safe: the model stops where the rules say nothing. -/
  | elapsedRange
  /-- Raised by a GAP tick with `gap` = 0, whose `gap - 1` is no value of the register (R8, R18). Safe, as above. -/
  | gapRange
  deriving DecidableEq, Repr

/-- Why an instruction has no meaning. -/
inductive Refusal where
  /-- Raised by no arm of `exec`: every instruction has its meaning. Safe: the model stops. -/
  | notModelled (mnemonic : String)
  deriving DecidableEq, Repr

/-- R114: every register at its reset value, every output valid bit 0. Nothing is listed of the input trace. -/
def State.reset : State where
  phase := .wEdge
  e := 0#18
  bitIdx := 0#5
  frame := 0#32
  speed := 32768#16
  idle := 0#10
  gap := 0#10
  dec := none
  act := none
  note := none
  cause := none
  inputs := []
  clock := 0

end Sys2Proof.Machine
end

