-- ==== Sys2Proof/Machine/Inputs.lean ====
section
/-! DEFINITION. The input ports over time (spec/10_state.md rule R24, spec/00_scope.md rules R4 and R9): the pins at this
tick, the trace one tick on, and the level x(t) as a function of the tick; and the pulse-train notation of
spec/30_encoding.md rules R51 and R52 with which an input trace is written. -/

namespace Sys2Proof.Machine

/-- The pins at this tick: what the first listed run says, a free value where nothing is listed (assumption log 1). -/
def State.pins (s : State) : Pins :=
  match s.inputs with
  | [] => ⟨Config.freeReset s.clock, Config.freeLine s.clock⟩
  | r :: _ => ⟨r.rst, r.ir⟩

/-- The listed runs after one tick of the first has passed. -/
def dropTick : List Run → List Run
  | [] => []
  | r :: rs =>
    match r.more with
    | none => r :: rs
    | some 0 => rs
    | some (k + 1) => { r with more := some k } :: rs

/-- The state with the input trace one tick on. -/
def advancePins (s : State) : State :=
  { s with inputs := dropTick s.inputs, clock := s.clock + 1 }

/-- The listed runs after n ticks have passed. -/
def dropTicks : Nat → List Run → List Run
  | 0, rs => rs
  | n + 1, rs => dropTicks n (dropTick rs)

/-- The state with the input trace n ticks on. -/
def advanceBy (n : Nat) (s : State) : State :=
  { s with inputs := dropTicks n s.inputs, clock := s.clock + n }

/-- The pins n ticks from now. -/
def State.pinsAt (s : State) (n : Nat) : Pins :=
  (advanceBy n s).pins

/-- The line level n ticks from now: the trace x of R9, counted from the present tick. -/
def State.lineAt (s : State) (n : Nat) : Level :=
  (s.pinsAt n).ir

/-- A pulse train: runs of level from left to right, each with its length in ticks (R51). -/
abbrev Train := List (Level × Nat)

/-- The input trace from now on begins with this train, with `rst` low throughout (R51: "placed at tick a"). -/
def carries (s : State) : Train → Prop
  | [] => True
  | (l, n) :: rest => (∀ j < n, s.pinsAt j = ⟨false, l⟩) ∧ carries (advanceBy n s) rest

/-- `H<n>` or `L<n>` as listed runs; a run of no ticks lists nothing. -/
def levelRun (l : Level) : Nat → List Run
  | 0 => []
  | n + 1 => [⟨false, l, some n⟩]

/-- `H*` or `L*` (R51). -/
def levelForever (l : Level) : List Run :=
  [⟨false, l, none⟩]

/-- A train as listed runs with `rst` low. -/
def trainRuns : Train → List Run
  | [] => []
  | (l, n) :: rest => levelRun l n ++ trainRuns rest

/-- The cells of bits i, i+1, ..., i+n-1: bit k is a low part of `lo k` ticks and a high part of `hi k` ticks (R40). -/
def bitCells (lo hi : Nat → Nat) : (i n : Nat) → Train
  | _, 0 => []
  | i, n + 1 => (.low, lo i) :: (.high, hi i) :: bitCells lo hi (i + 1) n

/-- A train of the shape NEC32 (R40): lead, space, 32 bit cells and the first tick of the terminating low. -/
def necShape (lead space : Nat) (lo hi : Nat → Nat) : Train :=
  (.low, lead) :: (.high, space) :: (bitCells lo hi 0 Config.profile.nBits ++ [(.low, 1)])

/-- `RAW(b0, b1, b2, b3)` of R52 for the frame word w: nominal durations, with the trailing `L560`. -/
def rawTrain (w : FrameWord) : Train :=
  (.low, 9000) :: (.high, 4500) ::
    (bitCells (fun _ => 560) (fun i => if w.getLsbD i then 1690 else 560) 0 Config.profile.nBits ++ [(.low, 560)])

/-- `NEC(A, C)` of R52. -/
def necTrain (a c : Byte) : Train :=
  rawTrain (necFrame a c)

/-- `IDLE(n)` of R52. -/
def idleTrain (n : Nat) : Train :=
  [(.high, n)]

/-- `REP k { T }` of R51. -/
def repTrain : Nat → Train → Train
  | 0, _ => []
  | k + 1, t => t ++ repTrain k t

end Sys2Proof.Machine
end

