-- ==== Sys2Proof/Machine/Operands.lean ====
section
/-! DEFINITION. Every operand the rules name. A command's only operand is its code, and the duty of an actuation command
"is not in the frame" (spec/30_encoding.md rule R43); a wait's operands are the target level and the timeout of its phase
(spec/10_state.md rule R12); the bit value is classified from the measured duration (spec/41_frame_decoder.md rule
R67). -/

namespace Sys2Proof.Machine

/-- The duty of Forward and Backward: `speed` at the start of the tick (R43, R80, R84). -/
def currentDuty (s : State) : Duty :=
  s.speed

/-- The duty of Left and Right: TURN_SPEED (R43, R81, R83). -/
def turnDuty : Duty :=
  BitVec.ofNat 16 Config.profile.turnSpeed

/-- The duty of Stop, which takes none: 0 (R48). -/
def stopDuty : Duty :=
  0#16

/-- The operands of a Level-Wait (R54): the level to wait for and the timeout in ticks. The line is fixed to `ir_in`. -/
structure Wait where
  target : Level
  timeout : Nat
  deriving DecidableEq, Repr

/-- The wait of each phase, the table of R12; GAP waits for no level. -/
def waitOf : Phase → Option Wait
  | .wEdge => some ⟨.low, Config.profile.tEdgeTo⟩
  | .wLead => some ⟨.high, Config.profile.tLeadTo⟩
  | .wSpace => some ⟨.low, Config.profile.tSpaceTo⟩
  | .wBitLow => some ⟨.high, Config.profile.tBitLowTo⟩
  | .wBitHigh => some ⟨.low, Config.profile.tBitHighTo⟩
  | .gap => none

/-- R67: "Classify the bit as `1` if duration exceeds 1,200 µs, else `0`." -/
def classifyBit (d : Nat) : Bool :=
  decide (Config.profile.tOne < d)

/-- The window of the lead pulse, inclusive at both ends (R63). -/
def leadInWindow (d : Nat) : Bool :=
  decide (Config.profile.tLeadMin ≤ d ∧ d ≤ Config.profile.tLeadMax)

/-- The window of the space, inclusive at both ends (R64). -/
def spaceInWindow (d : Nat) : Bool :=
  decide (Config.profile.tSpaceMin ≤ d ∧ d ≤ Config.profile.tSpaceMax)

/-- Whether a measured high pulse is too short to be a bit (R66). -/
def bitTooShort (d : Nat) : Bool :=
  decide (d < Config.profile.tBitMin)

/-- The speed after Increase: "speed += 6553 iff speed + 6553 < 65536", in integers (R86, R8). -/
def increasedSpeed (v : Duty) : Duty :=
  if v.toNat + Config.profile.speedStep < Config.profile.speedLimit then
    BitVec.ofNat 16 (v.toNat + Config.profile.speedStep)
  else v

/-- The speed after Decrease: "speed -= 6553 iff speed > 6553", in integers (R87, R8). -/
def decreasedSpeed (v : Duty) : Duty :=
  if Config.profile.speedStep < v.toNat then BitVec.ofNat 16 (v.toNat - Config.profile.speedStep) else v

end Sys2Proof.Machine
end

