-- ==== Sys2Proof/Machine/Ops.lean ====
section
/-! DEFINITION. The named operations over the registers and the output ports, each written once: the primitives of
spec/00_scope.md rule R10, reset (spec/70_reset_and_hazards.md rule R114), the start of the next attempt
(spec/43_control_loop.md rule R98), and the ABORT of an attempt, the block's one exceptional mechanism
(spec/60_exceptions.md rules R101 and R105), with its resumption beside it (R106). There is no memory and no
addressed access (spec/20_memory.md rule R28). -/

namespace Sys2Proof.Machine

/-- "Each output event is a strobe of exactly one tick" (R27): a tick begins with every valid bit 0. -/
def clearOutputs (s : State) : State :=
  { s with dec := none, act := none, note := none, cause := none }

/-- `EmitDec(1, code)` (R10, R71). -/
def emitDecOk (code : Byte) (s : State) : State :=
  { s with dec := some (.ok code) }

/-- `EmitDec(0, 0)`, with the ghost label of the cause (R10, R71, R101). -/
def emitDecFail (c : Cause) (s : State) : State :=
  { s with dec := some .fail, cause := some c }

/-- `EmitAct(op, duty)` (R10). -/
def emitAct (op : ActOp) (duty : Duty) (s : State) : State :=
  { s with act := some ⟨op, duty⟩ }

/-- `EmitNote(action, code)` (R10). -/
def emitNote (action : NoteAction) (code : Byte) (s : State) : State :=
  { s with note := some ⟨action, code⟩ }

/-- `speed <- v` (R10, R16). -/
def setSpeed (v : Duty) (s : State) : State :=
  { s with speed := v }

/-- `idle <- n` (R10, R17). -/
def setIdle (n : Nat) (s : State) : State :=
  { s with idle := BitVec.ofNat 10 n }

/-- `frame <- f` (R10, R68). -/
def setFrame (f : FrameWord) (s : State) : State :=
  { s with frame := f }

/-- `bit_idx <- i` (R10, R14). -/
def setBitIdx (i : BitVec 5) (s : State) : State :=
  { s with bitIdx := i }

/-- `e <- v` (R10, R13). -/
def setE (v : BitVec 18) (s : State) : State :=
  { s with e := v }

/-- `gap <- v` (R10, R18). -/
def setGap (v : BitVec 10) (s : State) : State :=
  { s with gap := v }

/-- The next wait of an attempt: `phase <- p; e <- 1` (R57(c), R73). -/
def enterWait (p : Phase) (s : State) : State :=
  { s with phase := p, e := 1#18 }

/-- The start of the next attempt after `g` ticks of GAP (R98): "re-entered from the top", whatever ended the last one.
It is also the resumption after an abort: "there is no return-from-trap operation" (R106). -/
def startAttempt (g : Nat) (s : State) : State :=
  if g = 0 then { s with phase := .wEdge, e := 0#18, gap := 0#10 }
  else { s with phase := .gap, e := 0#18, gap := BitVec.ofNat 10 g }

/-- The failure path of the Control Loop (R94): count the failure; past the limit force a stop, with no `note` and no
pause (R95), otherwise pause (R96). -/
def countFailure (s : State) : State :=
  if Config.profile.idleLimit < s.idle.toNat + 1 then
    startAttempt Config.profile.actionGapUs (setIdle 0 (emitAct .stop stopDuty s))
  else startAttempt Config.profile.pauseUs (setIdle (s.idle.toNat + 1) s)

/-- TAKING THE ABORT, `end_fail(cause)` (R73, R105): the attempt ends with result -1 at this tick and the Control Loop's
failure path follows in the same tick. Nothing is saved; `speed` and `frame` are not written. -/
def abortAttempt (c : Cause) (s : State) : State :=
  countFailure (emitDecFail c s)

/-- R114: every register takes its reset value and every valid bit is 0; the environment's trace is not touched. -/
def resetRegisters (s : State) : State :=
  { State.reset with inputs := s.inputs, clock := s.clock }

end Sys2Proof.Machine
end

