-- ==== Sys2Proof/Machine/Motion.lean ====
section
/-! DEFINITION. The five movement commands (spec/42_dispatcher.md rules R80 to R84): each issues one actuation command and
one notification and writes no register. -/

namespace Sys2Proof.Machine

/-- FORWARD (R80): `EmitAct(1, speed); EmitNote(0, 0x18)`. -/
def execForward (s : State) : Host.Outcome State Fault Refusal :=
  .next (emitNote .forward Config.codeForward (emitAct .forward (currentDuty s) s))

/-- LEFT (R81): `EmitAct(3, 13107); EmitNote(1, 0x08)`. -/
def execLeft (s : State) : Host.Outcome State Fault Refusal :=
  .next (emitNote .left Config.codeLeft (emitAct .left turnDuty s))

/-- STOP (R82): `EmitAct(0, 0); EmitNote(2, 0x1C)`. -/
def execStop (s : State) : Host.Outcome State Fault Refusal :=
  .next (emitNote .stop Config.codeStop (emitAct .stop stopDuty s))

/-- RIGHT (R83): `EmitAct(4, 13107); EmitNote(3, 0x5A)`. -/
def execRight (s : State) : Host.Outcome State Fault Refusal :=
  .next (emitNote .right Config.codeRight (emitAct .right turnDuty s))

/-- BACKWARD (R84): `EmitAct(2, speed); EmitNote(4, 0x52)`. -/
def execBackward (s : State) : Host.Outcome State Fault Refusal :=
  .next (emitNote .backward Config.codeBackward (emitAct .backward (currentDuty s) s))

end Sys2Proof.Machine
end

