-- ==== Sys2Proof/Machine/Speed.lean ====
section
/-! DEFINITION. The three speed commands (spec/42_dispatcher.md rules R85 to R87): each may write `speed`, emits one
notification and issues no actuation command. -/

namespace Sys2Proof.Machine

/-- RESET_SPEED (R85): `speed <- 32768; EmitNote(5, 0x09)`. -/
def execResetSpeed (s : State) : Host.Outcome State Fault Refusal :=
  .next (emitNote .resetSpeed Config.codeResetSpeed (setSpeed (BitVec.ofNat 16 Config.profile.speedReset) s))

/-- INC_SPEED (R86): the increase where it stays below 65536, and the notification "whether or not `speed` changed". -/
def execIncSpeed (s : State) : Host.Outcome State Fault Refusal :=
  .next (emitNote .incSpeed Config.codeIncSpeed (setSpeed (increasedSpeed s.speed) s))

/-- DEC_SPEED (R87): the decrease where `speed` exceeds the step, and the notification in every case. -/
def execDecSpeed (s : State) : Host.Outcome State Fault Refusal :=
  .next (emitNote .decSpeed Config.codeDecSpeed (setSpeed (decreasedSpeed s.speed) s))

end Sys2Proof.Machine
end

