-- ==== Sys2Proof/Machine/Unknown.lean ====
section
/-! DEFINITION. The catch-all row of the command map (spec/42_dispatcher.md rule R88). -/

namespace Sys2Proof.Machine

/-- UNKNOWN (R88): "no actuation; observable log only", `EmitNote(8, c)`. -/
def execUnknown (code : Byte) (s : State) : Host.Outcome State Fault Refusal :=
  .next (emitNote .unknown code s)

end Sys2Proof.Machine
end

