-- ==== Sys2Proof/Machine/Dispatch.lean ====
section
/-! DEFINITION. DISPATCH (spec/42_dispatcher.md rule R79): one arm per row of the command map. -/

namespace Sys2Proof.Machine

def exec (i : Instr) (s : State) : Host.Outcome State Fault Refusal :=
  match i with
  | .forward => Sys2Proof.Machine.execForward s
  | .left => Sys2Proof.Machine.execLeft s
  | .stop => Sys2Proof.Machine.execStop s
  | .right => Sys2Proof.Machine.execRight s
  | .backward => Sys2Proof.Machine.execBackward s
  | .resetSpeed => Sys2Proof.Machine.execResetSpeed s
  | .incSpeed => Sys2Proof.Machine.execIncSpeed s
  | .decSpeed => Sys2Proof.Machine.execDecSpeed s
  | .unknown code => Sys2Proof.Machine.execUnknown code s

end Sys2Proof.Machine
end

