-- ==== Sys2Proof/Machine/FrameDecoder.lean ====
section
/-! DEFINITION. The Level-Wait primitive in its per-tick form (spec/40_level_wait.md rule R59) and the five stages of the
Frame Decoder (spec/41_frame_decoder.md rules R62 to R71) as the per-tick machine of rule R73, down to the end of the
attempt in its resolve tick. -/

namespace Sys2Proof.Machine

/-- What one tick of a wait finds (R59). -/
inductive WaitOutcome where
  /-- The target level was sampled at elapsed `d`: success with result `d`. -/
  | seen (d : Nat)
  /-- Elapsed is one past the timeout: failure, the line not examined. -/
  | timedOut
  /-- The wait goes on. -/
  | waiting
  deriving DecidableEq, Repr

/-- One tick of LEVELWAIT at elapsed `e` with line level `x` (R59, and R55 for the boundary). -/
def levelWaitTick (w : Wait) (e : Nat) (x : Level) : WaitOutcome :=
  if e ≤ w.timeout ∧ x = w.target then .seen e
  else if e = w.timeout + 1 then .timedOut
  else .waiting

/-- `e <- e + 1`, staying in the phase (R59). A value past 18 bits, which no run reaches, is a fault (R8, R13). -/
def stayWaiting (s : State) : Host.Outcome State Fault Refusal :=
  if s.e.toNat + 1 < 2 ^ Config.profile.elapsedW then .next (setE (BitVec.ofNat 18 (s.e.toNat + 1)) s)
  else .fault .elapsedRange

/-- Stage 1, Idle to Lead Edge (R62): no window, any success passes. -/
def edgeStage (d : Option Nat) (s : State) : State :=
  match d with
  | none => abortAttempt .edgeTimeout s
  | some _ => enterWait .wLead s

/-- Stage 2, Lead Pulse (R63). -/
def leadStage (d : Option Nat) (s : State) : State :=
  match d with
  | none => abortAttempt .leadTimeout s
  | some n => if leadInWindow n then enterWait .wSpace s else abortAttempt .leadWindow s

/-- Stage 3, Space (R64); bit 0 is the next to be read. -/
def spaceStage (d : Option Nat) (s : State) : State :=
  match d with
  | none => abortAttempt .spaceTimeout s
  | some n => if spaceInWindow n then setBitIdx 0#5 (enterWait .wBitLow s) else abortAttempt .spaceWindow s

/-- Stage 4, first wait of a bit (R65): the duration of the low part is not checked. -/
def bitLowStage (d : Option Nat) (s : State) : State :=
  match d with
  | none => abortAttempt (.bitLowTimeout s.bitIdx) s
  | some _ => enterWait .wBitHigh s

/-- `end_ok(c)` (R73): the result goes out, `idle` is reset, the command is dispatched in the same tick, and the next
attempt follows after the action gap (R71, R93, R79, R97, R98; the order is that of R35). -/
def finishAttempt (f : FrameWord) (i : Instr) (s : State) : Host.Outcome State Fault Refusal :=
  match exec i (setIdle 0 (emitDecOk (commandByte f) s)) with
  | .next t => .next (startAttempt Config.profile.actionGapUs t)
  | .fault r => .fault r
  | .refused r => .refused r

/-- Stage 5, checksum and result, on the frame with all 32 bits of this attempt (R69, R71). -/
def checksumStage (f : FrameWord) (s : State) : Host.Outcome State Fault Refusal :=
  match decodeFrame f with
  | .error .addrCheck => .next (abortAttempt .addrCheck s)
  | .error .cmdCheck => .next (abortAttempt .cmdCheck s)
  | .ok i => finishAttempt f i s

/-- The frame with the bit just measured in its place (R67, R68). -/
def frameWithBit (d : Nat) (s : State) : FrameWord :=
  replaceBit s.frame s.bitIdx (classifyBit d)

/-- Stage 4, measurement of a bit's high pulse (R66). The checksum "reads f, the frame including the bit written this
tick" (R73). -/
def bitHighStage (d : Option Nat) (s : State) : Host.Outcome State Fault Refusal :=
  match d with
  | none => .next (abortAttempt (.bitHighTimeout s.bitIdx) s)
  | some n =>
    if bitTooShort n then .next (abortAttempt (.bitShort s.bitIdx) s)
    else if s.bitIdx.toNat < Config.profile.nBits - 1 then
      .next (enterWait .wBitLow (setBitIdx (s.bitIdx + 1#5) (setFrame (frameWithBit n s) s)))
    else checksumStage (frameWithBit n s) (setFrame (frameWithBit n s) s)

/-- One tick of GAP (R96): the line is not sampled and no event is emitted. The last tick of the gap does what R98 does with
G = 0: `phase <- W_EDGE; e <- 0; gap <- 0`. `gap` = 0, which no run reaches in this phase,
is a fault (R8, R18). -/
def gapTick (s : State) : Host.Outcome State Fault Refusal :=
  if s.gap = 1#10 then .next (startAttempt 0 s)
  else if s.gap = 0#10 then .fault .gapRange
  else .next (setGap (s.gap - 1#10) s)

/-- The stage of the wait that just resolved, with its result (`none` is the sentinel of R60). -/
def resolveWait (d : Option Nat) (s : State) : Host.Outcome State Fault Refusal :=
  match s.phase with
  | .wEdge => .next (edgeStage d s)
  | .wLead => .next (leadStage d s)
  | .wSpace => .next (spaceStage d s)
  | .wBitLow => .next (bitLowStage d s)
  | .wBitHigh => bitHighStage d s
  | .gap => gapTick s

/-- One tick with `rst` = 0 and line level `x`, after the outputs are cleared (R73, R96). -/
def sequencerTick (x : Level) (s : State) : Host.Outcome State Fault Refusal :=
  match waitOf s.phase with
  | none => gapTick s
  | some w =>
    match levelWaitTick w s.e.toNat x with
    | .seen d => resolveWait (some d) s
    | .timedOut => resolveWait none s
    | .waiting => stayWaiting s

/-- One tick of the block with the pins `p`: `rst` = 1 "takes precedence over every other rule in its tick" (R114). -/
def tick (p : Pins) (s : State) : Host.Outcome State Fault Refusal :=
  if p.rst then .next (resetRegisters s) else sequencerTick p.ir (clearOutputs s)

end Sys2Proof.Machine
end

