-- ==== Sys2Proof/Machine/Placement.lean ====
section
/-! DEFINITION. Where a command word must stand for the next tick to run it. The block fetches nothing (spec/10_state.md
rule R19): a command reaches the dispatcher in the resolve tick of the attempt that read it (spec/42_dispatcher.md
rule R79), so the command is placed as the frame of an attempt at that tick (assumption log 8). -/

namespace Sys2Proof.Machine

/-- The length of a nominal high part that carries the bit (R40). -/
def nominalHigh (b : Bool) : Nat :=
  if b then 1690 else 560

/-- The state at the resolve tick of an attempt that has read `NEC(0x00, c)`: bits 0 to 30 are in the frame, bit 31 has
been high for its nominal length, and the line is sampled low at this tick. -/
def placeCommand (c : Byte) (s : State) : State :=
  let f := necFrame 0x00#8 c
  { s with
    phase := .wBitHigh
    e := BitVec.ofNat 18 (nominalHigh (f.getLsbD 31))
    bitIdx := 31#5
    frame := f
    inputs := ⟨false, .low, some 0⟩ :: dropTick s.inputs }

end Sys2Proof.Machine
end

