-- ==== Sys2Proof/Machine/Step.lean ====
section
/-! DEFINITION. One step of the machine is one tick of the block (spec/00_scope.md rules R4 and R9): the pins of this tick
drive the sequencer, and the input trace moves one tick on. -/

namespace Sys2Proof.Machine

/-- One tick. -/
def step (s : State) : Host.Outcome State Fault Refusal :=
  tick s.pins (advancePins s)

/-- The state with the command of opcode-table word `w` placed where the next tick runs it. -/
def State.withFetchWord (s : State) (nbits w : Nat) : State :=
  placeCommand (BitVec.ofNat 8 (w % 2 ^ nbits)) s

end Sys2Proof.Machine
end

