-- ==== Sys2Proof/Machine/Flags.lean ====
section
/-! DEFINITION. The block "has no flags register and no condition codes" (spec/10_state.md rule R20): its status is the
result of each attempt and its output ports. Here is every port bit as a function of the state (R25), with the encodings
of spec/30_encoding.md rules R48 to R50 and zero payloads where a valid bit is 0 (R26), and the encoding of `phase`
(R12) and of the cause labels (R101). -/

namespace Sys2Proof.Machine

/-- The encoding of `phase` (R12). -/
def Phase.code : Phase → BitVec 3
  | .wEdge => 0#3
  | .wLead => 1#3
  | .wSpace => 2#3
  | .wBitLow => 3#3
  | .wBitHigh => 4#3
  | .gap => 5#3

/-- `act_op` (R48). -/
def ActOp.code : ActOp → BitVec 3
  | .stop => 0#3
  | .forward => 1#3
  | .backward => 2#3
  | .left => 3#3
  | .right => 4#3

/-- `note_action` (R49). -/
def NoteAction.code : NoteAction → BitVec 4
  | .forward => 0#4
  | .left => 1#4
  | .stop => 2#4
  | .right => 3#4
  | .backward => 4#4
  | .resetSpeed => 5#4
  | .incSpeed => 6#4
  | .decSpeed => 7#4
  | .unknown => 8#4

/-- The number of a cause (R101). -/
def Cause.number : Cause → Nat
  | .edgeTimeout => 1
  | .leadTimeout => 2
  | .leadWindow => 3
  | .spaceTimeout => 4
  | .spaceWindow => 5
  | .bitLowTimeout _ => 6
  | .bitHighTimeout _ => 7
  | .bitShort _ => 8
  | .addrCheck => 9
  | .cmdCheck => 10

/-- The source's integer result, "r = dec_ok ? dec_code : -1" (R50, R60). -/
def DecEvent.result : DecEvent → Int
  | .ok c => c.toNat
  | .fail => -1

/-- Port `act_valid` (R25). -/
def State.actValid (s : State) : Bool :=
  s.act.isSome

/-- Port `act_op` (R25, R26, R48). -/
def State.actOp (s : State) : BitVec 3 :=
  match s.act with
  | some a => a.op.code
  | none => 0#3

/-- Port `act_duty` (R25, R26). -/
def State.actDuty (s : State) : Duty :=
  match s.act with
  | some a => a.duty
  | none => 0#16

/-- Port `note_valid` (R25). -/
def State.noteValid (s : State) : Bool :=
  s.note.isSome

/-- Port `note_action` (R25, R26, R49). -/
def State.noteAction (s : State) : BitVec 4 :=
  match s.note with
  | some n => n.action.code
  | none => 0#4

/-- Port `note_code` (R25, R26). -/
def State.noteCode (s : State) : Byte :=
  match s.note with
  | some n => n.code
  | none => 0#8

/-- Port `dec_valid` (R25). -/
def State.decValid (s : State) : Bool :=
  s.dec.isSome

/-- Port `dec_ok` (R25, R50). -/
def State.decOk (s : State) : Bool :=
  match s.dec with
  | some (.ok _) => true
  | some .fail => false
  | none => false

/-- Port `dec_code` (R25, R26, R50). -/
def State.decCode (s : State) : Byte :=
  match s.dec with
  | some (.ok c) => c
  | some .fail => 0#8
  | none => 0#8

/-- All nine output ports of a tick together (R25): all that the environment observes (R112). -/
structure Ports where
  actValid : Bool
  actOp : BitVec 3
  actDuty : Duty
  noteValid : Bool
  noteAction : BitVec 4
  noteCode : Byte
  decValid : Bool
  decOk : Bool
  decCode : Byte
  deriving DecidableEq, Repr

/-- What the output ports show of the tick just done. -/
def State.ports (s : State) : Ports where
  actValid := s.actValid
  actOp := s.actOp
  actDuty := s.actDuty
  noteValid := s.noteValid
  noteAction := s.noteAction
  noteCode := s.noteCode
  decValid := s.decValid
  decOk := s.decOk
  decCode := s.decCode

end Sys2Proof.Machine
end

