-- ==== Sys2Proof/Machine/Reference.lean ====
section
/-! DEFINITION. The functional forms the spec gives beside the per-tick machine: LEVELWAIT (spec/40_level_wait.md rule R54),
DECODE (spec/41_frame_decoder.md rule R61) and ITERATE (spec/43_control_loop.md rule R92), each a function of the input
trace x and a start tick. The machine does not call them; statements compare it with them. -/

namespace Sys2Proof.Machine

/-- The loop of R54 from elapsed `e` on, with `left` elapsed values still allowed: the result (`none` is -1) and the
resolve tick. -/
def levelWaitFrom (target : Level) (x : Nat → Level) (s : Nat) : (left e : Nat) → Option Nat × Nat
  | 0, e => (none, s + e)
  | left + 1, e => if x (s + e) = target then (some e, s + e) else levelWaitFrom target x s left (e + 1)

/-- `LevelWait(target, TO)` started at tick `s` (R54). -/
def levelWait (w : Wait) (x : Nat → Level) (s : Nat) : Option Nat × Nat :=
  levelWaitFrom w.target x s (w.timeout + 1) 0

/-- Stage 4 of R61 from bit `i` on with `left` bits to read, started at tick `p`: the frame, or the cause, and the tick. -/
def readBits (x : Nat → Level) : (left : Nat) → BitVec 5 → Nat → FrameWord → Except Cause FrameWord × Nat
  | 0, _, p, f => (.ok f, p)
  | left + 1, i, p, f =>
    match levelWait ⟨.high, Config.profile.tBitLowTo⟩ x p with
    | (none, t) => (.error (.bitLowTimeout i), t)
    | (some _, t) =>
      match levelWait ⟨.low, Config.profile.tBitHighTo⟩ x t with
      | (none, u) => (.error (.bitHighTimeout i), u)
      | (some d, u) =>
        if bitTooShort d then (.error (.bitShort i), u)
        else readBits x left (i + 1#5) u (replaceBit f i (classifyBit d))

/-- Stage 5 of R61. -/
def checkFrame (f : FrameWord) : Except Cause Byte :=
  match decodeFrame f with
  | .error .addrCheck => .error .addrCheck
  | .error .cmdCheck => .error .cmdCheck
  | .ok _ => .ok (commandByte f)

/-- `Decode()` started at tick `s` with `f0` in the frame register: the command code or the cause of the -1, and the
attempt's resolve tick (R61). -/
def decodeAttempt (x : Nat → Level) (f0 : FrameWord) (s : Nat) : Except Cause Byte × Nat :=
  match levelWait ⟨.low, Config.profile.tEdgeTo⟩ x s with
  | (none, t) => (.error .edgeTimeout, t)
  | (some _, t) =>
    match levelWait ⟨.high, Config.profile.tLeadTo⟩ x t with
    | (none, u) => (.error .leadTimeout, u)
    | (some d, u) =>
      if !leadInWindow d then (.error .leadWindow, u)
      else
        match levelWait ⟨.low, Config.profile.tSpaceTo⟩ x u with
        | (none, v) => (.error .spaceTimeout, v)
        | (some g, v) =>
          if !spaceInWindow g then (.error .spaceWindow, v)
          else
            match readBits x Config.profile.nBits 0#5 v f0 with
            | (.error c, z) => (.error c, z)
            | (.ok f, z) => (checkFrame f, z)

/-- What an iteration does and hands to the next one (R92): its resolve tick with the events of that tick, and `idle`,
`speed` and the next start tick. -/
structure Iteration where
  resolve : Nat
  dec : DecEvent
  act : Option ActEvent
  note : Option NoteEvent
  idle : Nat
  speed : Duty
  start : Nat
  deriving DecidableEq, Repr

/-- The Speed State after the dispatch of a command (R79, R85 to R87). -/
def speedAfter (i : Instr) (v : Duty) : Duty :=
  match i with
  | .resetSpeed => BitVec.ofNat 16 Config.profile.speedReset
  | .incSpeed => increasedSpeed v
  | .decSpeed => decreasedSpeed v
  | .forward | .left | .stop | .right | .backward => v
  | .unknown _ => v

/-- The `act` event of a dispatch at speed `v`: "exactly one `act` event for the five movement codes and none for the other
four rows" (R79). -/
def actuationOf (i : Instr) (v : Duty) : Option ActEvent :=
  match i with
  | .forward => some ⟨.forward, v⟩
  | .left => some ⟨.left, turnDuty⟩
  | .stop => some ⟨.stop, stopDuty⟩
  | .right => some ⟨.right, turnDuty⟩
  | .backward => some ⟨.backward, v⟩
  | .resetSpeed | .incSpeed | .decSpeed => none
  | .unknown _ => none

/-- The action a dispatch notifies (R49). -/
def notedAction : Instr → NoteAction
  | .forward => .forward
  | .left => .left
  | .stop => .stop
  | .right => .right
  | .backward => .backward
  | .resetSpeed => .resetSpeed
  | .incSpeed => .incSpeed
  | .decSpeed => .decSpeed
  | .unknown _ => .unknown

/-- One iteration of the Control Loop started at tick `s` (R92). -/
def iterate (x : Nat → Level) (f0 : FrameWord) (idle : Nat) (speed : Duty) (s : Nat) : Iteration :=
  match decodeAttempt x f0 s with
  | (.ok c, t) =>
    { resolve := t, dec := .ok c, act := actuationOf (decodeCommand c) speed
      note := some ⟨notedAction (decodeCommand c), c⟩
      idle := 0, speed := speedAfter (decodeCommand c) speed, start := t + 1 + Config.profile.actionGapUs }
  | (.error _, t) =>
    if Config.profile.idleLimit < idle + 1 then
      { resolve := t, dec := .fail, act := some ⟨.stop, stopDuty⟩, note := none
        idle := 0, speed := speed, start := t + 1 + Config.profile.actionGapUs }
    else
      { resolve := t, dec := .fail, act := none, note := none
        idle := idle + 1, speed := speed, start := t + 1 + Config.profile.pauseUs }

end Sys2Proof.Machine
end

