-- ==== Sys2Proof/Safety.lean ====
section
/-! DEFINITION. What counts as a safe run, in the terms the statements use: the invariant of every state the block holds
between ticks (spec/10_state.md rules R12 to R18 and R27), the reachable speeds (spec/42_dispatcher.md rule R90), and a run
of n ticks. -/

namespace Sys2Proof.Machine

/-- The elapsed and gap counters in their ranges: in W_EDGE `e` runs from 0, in the other waits from 1, to the timeout plus
1, and `gap` is 0 (R13, R18); in GAP `e` is 0 and 1 to 1000 ticks are left (R13, R18, R96). -/
def countersInRange (s : State) : Bool :=
  match waitOf s.phase with
  | some w =>
    decide (s.e.toNat ≤ w.timeout + 1) && (decide (s.phase = .wEdge) || decide (1 ≤ s.e.toNat)) && decide (s.gap = 0#10)
  | none => decide (s.e = 0#18) && decide (1 ≤ s.gap.toNat ∧ s.gap.toNat ≤ Config.profile.pauseUs)

/-- "Between ticks it holds a value in [0, 800]" (R17). -/
def idleInRange (s : State) : Bool :=
  decide (s.idle.toNat ≤ Config.profile.idleLimit)

/-- The combinations of events that occur in one tick (R27): none; a success with one notification of its code; a failure
alone; a failure with a forced stop. The ghost cause stands beside a failure and nowhere else. -/
def outputsLegal (s : State) : Bool :=
  match s.dec with
  | none => s.act.isNone && s.note.isNone && s.cause.isNone
  | some .fail => (s.act.isNone || s.act == some ⟨.stop, 0#16⟩) && s.note.isNone && s.cause.isSome
  | some (.ok c) => (match s.note with
      | some n => n.code == c
      | none => false) && s.cause.isNone

/-- The invariant of the states between ticks. -/
def inv (s : State) : Bool :=
  countersInRange s && idleInRange s && outputsLegal s

/-- "the values `speed` can take are exactly the eleven values 3 + 6553k for k = 0 to 10" (R90). -/
def speedReachable (s : State) : Prop :=
  ∃ k ≤ 10, s.speed.toNat = 3 + 6553 * k

/-- `n` ticks, stopping at the first fault or refusal (R99: an observation is of a finite prefix of ticks). -/
def ticks : Nat → State → Host.Outcome State Fault Refusal
  | 0, s => .next s
  | n + 1, s =>
    match step s with
    | .next t => ticks n t
    | .fault r => .fault r
    | .refused r => .refused r

/-- The machine takes `n` ticks from `s` and is in `t`. -/
def RunsTo (n : Nat) (s t : State) : Prop :=
  ticks n s = .next t

/-- The state at the start of an attempt (R98, R115). -/
def atAttemptStart (s : State) : Prop :=
  s.phase = .wEdge ∧ s.e = 0#18 ∧ s.gap = 0#10

/-- `rst` stays low for the next `n` ticks. -/
def noResetFor (n : Nat) (s : State) : Prop :=
  ∀ j < n, (s.pinsAt j).rst = false

/-- The line holds this level, with `rst` low, for the next `n` ticks (a run of R9). -/
def lineHolds (l : Level) (n : Nat) (s : State) : Prop :=
  ∀ j < n, s.pinsAt j = ⟨false, l⟩

/-- The state `n` ticks on as far as the trace and the outputs go: the registers of `s`, the trace moved on, no event. -/
def quietAfter (n : Nat) (s : State) : State :=
  clearOutputs (advanceBy n s)

/-- The `dec` event of an attempt's result (R50, R71). -/
def resultEvent (r : Except Cause Byte) : DecEvent :=
  match r with
  | .ok c => .ok c
  | .error _ => .fail

end Sys2Proof.Machine
end

