-- ==== Sys2Proof/Certificates/Slice0/Obligations.lean ====
section
/-! DEFINITION. The statements for the provers. Each docstring names the rule of spec/ it formalises, or, where it rests on
a choice, the spec's decision or the assumption log entry that states it. -/

open Sys2Proof Sys2Proof.Machine

/-! ## Encodings -/

/-- R44: "a CMD8 code selects exactly one action by equality on all 8 bits"; the UNKNOWN row takes every other code. -/
def Obligations.CommandMapSelectsByEquality : Prop :=
  decodeCommand 0x18#8 = .forward ∧ decodeCommand 0x08#8 = .left ∧ decodeCommand 0x1C#8 = .stop ∧
  decodeCommand 0x5A#8 = .right ∧ decodeCommand 0x52#8 = .backward ∧ decodeCommand 0x09#8 = .resetSpeed ∧
  decodeCommand 0x15#8 = .incSpeed ∧ decodeCommand 0x07#8 = .decSpeed ∧
  ∀ c : Byte, c ≠ 0x18#8 → c ≠ 0x08#8 → c ≠ 0x1C#8 → c ≠ 0x5A#8 → c ≠ 0x52#8 → c ≠ 0x09#8 → c ≠ 0x15#8 → c ≠ 0x07#8 →
    decodeCommand c = .unknown c

/-- Frames written out from the spec's tables (spec/95_test_vectors.md, frame words; R41, R44) decode to their commands. -/
def Obligations.WrittenFrameWordsDecode : Prop :=
  decodeFrame 0xE718FF00#32 = .ok .forward ∧ decodeFrame 0xF708FF00#32 = .ok .left ∧
  decodeFrame 0xE31CFF00#32 = .ok .stop ∧ decodeFrame 0xA55A5AA5#32 = .ok .right ∧
  decodeFrame 0xAD52FF00#32 = .ok .backward ∧ decodeFrame 0xF609FF00#32 = .ok .resetSpeed ∧
  decodeFrame 0xEA15FF00#32 = .ok .incSpeed ∧ decodeFrame 0xF807FF00#32 = .ok .decSpeed ∧
  decodeFrame 0xBA45FF00#32 = .ok (.unknown 0x45#8) ∧ decodeFrame 0xE618FF00#32 = .error .cmdCheck ∧
  decodeTableWord 8 0x18 = some .forward ∧ decodeTableWord 8 0x00 = some (.unknown 0x00#8)

/-- Decode and encode agree, for every well-formed instruction and every address (R41, R44, R46, R69). -/
def Obligations.EncodedFrameDecodesBack : Prop :=
  ∀ (a : Byte) (i : Instr), i.wellFormed = true →
    decodeFrame (encodeFrame a i) = .ok i ∧ decode (encodeBytes a i) = .ok i ∧
    packFrame a (~~~a) (encode i) (~~~encode i) = encodeFrame a i

/-- The other direction: a frame that decodes is the encoding of what it decodes to, so every frame has one meaning and
every bit of it counts (R69, R70; the spec marks R70 as derived from R69). -/
def Obligations.AcceptedFrameIsAnEncoding : Prop :=
  ∀ (f : FrameWord) (i : Instr), decodeFrame f = .ok i → i.wellFormed = true ∧ f = encodeFrame (frameByte 0 f) i

/-- The checksum law, which the spec marks as derived from R69: "(b + c) mod 256 = 0xFF holds exactly when c = ~b". -/
def Obligations.ChecksumHoldsExactlyForComplement : Prop :=
  ∀ b c : Byte, pairChecks b c = true ↔ c = ~~~b

/-- "flipping any single bit of NADDR or NCMD of an accepted frame makes it fail (§8 'Checksum rejection'), and so does
flipping any single bit of ADDR or CMD", with the cause that bit gives (the spec marks this as derived). -/
def Obligations.SingleFlippedBitIsRejected : Prop :=
  ∀ (a c : Byte) (j : Nat), j < 32 →
    decodeFrame (necFrame a c ^^^ (1#32 <<< j)) = .error (if j < 16 then .addrCheck else .cmdCheck)

/-- "The write replaces the bit; the other 31 bits are unchanged" (the spec's decision D21). -/
def Obligations.FrameWriteReplacesOneBit : Prop :=
  ∀ (f : FrameWord) (i : BitVec 5) (b : Bool) (j : Nat), j < 32 →
    (replaceBit f i b).getLsbD j = if j = i.toNat then b else f.getLsbD j

/-! ## The nine commands: result, events and frame. Each equation names the whole next state. -/

/-- R80. -/
def Obligations.ForwardActuatesAtCurrentSpeed : Prop :=
  encode .forward = 0b00011000#8 ∧ decodeCommand 0b00011000#8 = .forward ∧
  ∀ s : State, ∃ t, exec .forward s = .next t ∧
    t = { s with act := some ⟨.forward, s.speed⟩, note := some ⟨.forward, 0x18#8⟩ } ∧
    t.actValid = true ∧ t.actOp = 1#3 ∧ t.actDuty = s.speed ∧
    t.noteValid = true ∧ t.noteAction = 0#4 ∧ t.noteCode = 0x18#8

/-- R81. -/
def Obligations.LeftActuatesAtTurnSpeed : Prop :=
  encode .left = 0b00001000#8 ∧ decodeCommand 0b00001000#8 = .left ∧
  ∀ s : State, ∃ t, exec .left s = .next t ∧
    t = { s with act := some ⟨.left, 13107#16⟩, note := some ⟨.left, 0x08#8⟩ } ∧
    t.actValid = true ∧ t.actOp = 3#3 ∧ t.actDuty = 13107#16 ∧
    t.noteValid = true ∧ t.noteAction = 1#4 ∧ t.noteCode = 0x08#8

/-- R82. -/
def Obligations.StopActuatesStopWithZeroDuty : Prop :=
  encode .stop = 0b00011100#8 ∧ decodeCommand 0b00011100#8 = .stop ∧
  ∀ s : State, ∃ t, exec .stop s = .next t ∧
    t = { s with act := some ⟨.stop, 0#16⟩, note := some ⟨.stop, 0x1C#8⟩ } ∧
    t.actValid = true ∧ t.actOp = 0#3 ∧ t.actDuty = 0#16 ∧
    t.noteValid = true ∧ t.noteAction = 2#4 ∧ t.noteCode = 0x1C#8

/-- R83. -/
def Obligations.RightActuatesAtTurnSpeed : Prop :=
  encode .right = 0b01011010#8 ∧ decodeCommand 0b01011010#8 = .right ∧
  ∀ s : State, ∃ t, exec .right s = .next t ∧
    t = { s with act := some ⟨.right, 13107#16⟩, note := some ⟨.right, 0x5A#8⟩ } ∧
    t.actValid = true ∧ t.actOp = 4#3 ∧ t.actDuty = 13107#16 ∧
    t.noteValid = true ∧ t.noteAction = 3#4 ∧ t.noteCode = 0x5A#8

/-- R84. -/
def Obligations.BackwardActuatesAtCurrentSpeed : Prop :=
  encode .backward = 0b01010010#8 ∧ decodeCommand 0b01010010#8 = .backward ∧
  ∀ s : State, ∃ t, exec .backward s = .next t ∧
    t = { s with act := some ⟨.backward, s.speed⟩, note := some ⟨.backward, 0x52#8⟩ } ∧
    t.actValid = true ∧ t.actOp = 2#3 ∧ t.actDuty = s.speed ∧
    t.noteValid = true ∧ t.noteAction = 4#4 ∧ t.noteCode = 0x52#8

/-- R85: no `act` event is issued, so `act` is as it was. -/
def Obligations.ResetSpeedSetsHalfDuty : Prop :=
  encode .resetSpeed = 0b00001001#8 ∧ decodeCommand 0b00001001#8 = .resetSpeed ∧
  ∀ s : State, ∃ t, exec .resetSpeed s = .next t ∧
    t = { s with speed := 32768#16, note := some ⟨.resetSpeed, 0x09#8⟩ } ∧
    t.noteValid = true ∧ t.noteAction = 5#4 ∧ t.noteCode = 0x09#8

/-- R86: "speed += 6553 iff speed + 6553 < 65536"; the addition of words does not wrap under that test. -/
def Obligations.IncSpeedAddsStepBelowLimit : Prop :=
  encode .incSpeed = 0b00010101#8 ∧ decodeCommand 0b00010101#8 = .incSpeed ∧
  ∀ s : State, ∃ t, exec .incSpeed s = .next t ∧
    t = { s with
      speed := if s.speed.toNat + 6553 < 65536 then s.speed + 6553#16 else s.speed
      note := some ⟨.incSpeed, 0x15#8⟩ } ∧
    (s.speed.toNat ≤ 58982 → t.speed.toNat = s.speed.toNat + 6553) ∧ (58983 ≤ s.speed.toNat → t.speed = s.speed) ∧
    t.noteValid = true ∧ t.noteAction = 6#4 ∧ t.noteCode = 0x15#8

/-- R87: "speed -= 6553 iff speed > 6553". -/
def Obligations.DecSpeedSubtractsStepAboveStep : Prop :=
  encode .decSpeed = 0b00000111#8 ∧ decodeCommand 0b00000111#8 = .decSpeed ∧
  ∀ s : State, ∃ t, exec .decSpeed s = .next t ∧
    t = { s with
      speed := if 6553 < s.speed.toNat then s.speed - 6553#16 else s.speed
      note := some ⟨.decSpeed, 0x07#8⟩ } ∧
    (6554 ≤ s.speed.toNat → t.speed.toNat = s.speed.toNat - 6553 ∧ 1 ≤ t.speed.toNat) ∧
    (s.speed.toNat ≤ 6553 → t.speed = s.speed) ∧
    t.noteValid = true ∧ t.noteAction = 7#4 ∧ t.noteCode = 0x07#8

/-- R88. -/
def Obligations.UnknownOnlyNotifies : Prop :=
  (∀ c : Byte, c ≠ 0x18#8 → c ≠ 0x08#8 → c ≠ 0x1C#8 → c ≠ 0x5A#8 → c ≠ 0x52#8 → c ≠ 0x09#8 → c ≠ 0x15#8 →
    c ≠ 0x07#8 → decodeCommand c = .unknown c ∧ encode (.unknown c) = c) ∧
  ∀ (c : Byte) (s : State), ∃ t, exec (.unknown c) s = .next t ∧
    t = { s with note := some ⟨.unknown, c⟩ } ∧
    t.noteValid = true ∧ t.noteAction = 8#4 ∧ t.noteCode = c

/-- The speed arithmetic laws, which the spec marks as derived from R85 to R87: no dispatch wraps or clamps `speed`. -/
def Obligations.DispatchNeverWrapsSpeed : Prop :=
  ∀ (i : Instr) (s t : State), exec i s = .next t →
    (i ≠ .resetSpeed → i ≠ .incSpeed → i ≠ .decSpeed → t.speed = s.speed) ∧
    (i = .resetSpeed → t.speed.toNat = 32768) ∧
    (i = .incSpeed → t.speed.toNat = s.speed.toNat ∨ (t.speed.toNat = s.speed.toNat + 6553 ∧ t.speed.toNat ≤ 65535)) ∧
    (i = .decSpeed → t.speed.toNat = s.speed.toNat ∨ (t.speed.toNat + 6553 = s.speed.toNat ∧ 1 ≤ t.speed.toNat))

/-- "Its events and its `speed` write depend on `c` and `speed` only" (the spec marks this as derived from R80 to R88). -/
def Obligations.DispatchDependsOnCodeAndSpeedOnly : Prop :=
  ∀ (i : Instr) (s s' t t' : State), s.speed = s'.speed → s.act = s'.act → exec i s = .next t → exec i s' = .next t' →
    t.speed = t'.speed ∧ t.act = t'.act ∧ t.note = t'.note

/-! ## One tick -/

/-- A STEP RUNS THE DECODED INSTRUCTION: at the resolve tick of bit 31, where the frame with that bit decodes to `i`, the
tick is `exec i` on the state with the frame, the `dec` event and `idle` = 0 in place, and then the next attempt's start (R73,
R79, R93, R98; that all this takes no time is the spec's decision D4, and the action gap of 0 its decision D5). -/
def Obligations.StepRunsDecodedCommand : Prop :=
  ∀ (s : State) (i : Instr), s.pins = ⟨false, .low⟩ → s.phase = .wBitHigh → s.bitIdx = 31#5 →
    200 ≤ s.e.toNat → s.e.toNat ≤ 2500 →
    decodeFrame (replaceBit s.frame 31#5 (decide (1200 < s.e.toNat))) = .ok i →
    ∃ t, exec i { s with
        frame := replaceBit s.frame 31#5 (decide (1200 < s.e.toNat))
        idle := 0#10
        dec := some (.ok (commandByte (replaceBit s.frame 31#5 (decide (1200 < s.e.toNat)))))
        act := none
        note := none
        cause := none
        inputs := dropTick s.inputs
        clock := s.clock + 1 } = .next t ∧
      step s = .next { t with phase := .wEdge, e := 0#18, gap := 0#10 }

/-- A command placed by `withFetchWord` is the one the very next tick runs, from every state (assumption log 8). -/
def Obligations.PlacedWordRunsAtNextStep : Prop :=
  ∀ (s : State) (w : Nat), w < 256 →
    decodeTableWord 8 w = some (decodeCommand (BitVec.ofNat 8 w)) ∧
    ∃ t, exec (decodeCommand (BitVec.ofNat 8 w)) { s with
        phase := .wBitHigh
        e := (s.withFetchWord 8 w).e
        bitIdx := 31#5
        frame := necFrame 0x00#8 (BitVec.ofNat 8 w)
        idle := 0#10
        dec := some (.ok (BitVec.ofNat 8 w))
        act := none
        note := none
        cause := none
        inputs := dropTick s.inputs
        clock := s.clock + 1 } = .next t ∧
      step (s.withFetchWord 8 w) = .next { t with phase := .wEdge, e := 0#18, gap := 0#10 }

/-- Reset at any tick, "whatever the phase": every register at its reset value and every valid bit 0 (R114, whose kind of
reset is the spec's decision D15; no `act` event by its decision D16; the trace fields are the model's, log 1 and 2). -/
def Obligations.ResetTickRestoresResetState : Prop :=
  ∀ s : State, s.pins.rst = true →
    step s = .next { State.reset with inputs := dropTick s.inputs, clock := s.clock + 1 } ∧
    State.reset.actValid = false ∧ State.reset.noteValid = false ∧ State.reset.decValid = false

/-- "Initial state: Speed State = 32768 (50% duty), Idle Counter = 0."; the other five values are the spec's decision D15 and
D21 (R114). -/
def Obligations.ResetStateHasTheStatedValues : Prop :=
  State.reset.speed = 32768#16 ∧ State.reset.idle = 0#10 ∧ State.reset.phase = .wEdge ∧ State.reset.phase.code = 0#3 ∧
  State.reset.e = 0#18 ∧ State.reset.bitIdx = 0#5 ∧ State.reset.frame = 0#32 ∧ State.reset.gap = 0#10

/-- One tick of a wait (R59): it goes on, counting, or it hands its result to the stage. The state a wait resolves in keeps
every register. -/
def Obligations.WaitTickCountsOrResolves : Prop :=
  ∀ (s : State) (w : Wait), waitOf s.phase = some w → s.pins.rst = false →
    (s.e.toNat ≤ w.timeout → s.pins.ir = w.target → step s = resolveWait (some s.e.toNat) (quietAfter 1 s)) ∧
    (s.e.toNat = w.timeout + 1 → step s = resolveWait none (quietAfter 1 s)) ∧
    (s.e.toNat ≤ w.timeout → s.pins.ir ≠ w.target → step s = .next { quietAfter 1 s with e := s.e + 1#18 })

/-- Stage 5 (R69, R71): the address pair first, then the command pair, then the dispatch of `f[23:16]`. That it takes no time is
the spec's decision D4, the order of the two tests its decision D18. -/
def Obligations.ChecksumStageTestsBothPairs : Prop :=
  ∀ (f : FrameWord) (s : State),
    (((f.extractLsb' 0 8).toNat + (f.extractLsb' 8 8).toNat) % 256 ≠ 0xFF →
      checksumStage f s = .next (abortAttempt .addrCheck s)) ∧
    (((f.extractLsb' 0 8).toNat + (f.extractLsb' 8 8).toNat) % 256 = 0xFF →
      ((f.extractLsb' 16 8).toNat + (f.extractLsb' 24 8).toNat) % 256 ≠ 0xFF →
      checksumStage f s = .next (abortAttempt .cmdCheck s)) ∧
    (((f.extractLsb' 0 8).toNat + (f.extractLsb' 8 8).toNat) % 256 = 0xFF →
      ((f.extractLsb' 16 8).toNat + (f.extractLsb' 24 8).toNat) % 256 = 0xFF →
      ∃ t, exec (decodeCommand (f.extractLsb' 16 8)) { s with idle := 0#10, dec := some (.ok (f.extractLsb' 16 8)) } = .next t ∧
        checksumStage f s = .next { t with phase := .wEdge, e := 0#18, gap := 0#10 })

/-- TAKING THE ABORT, the whole next state (R94, R95, R98, R105): a failure is counted and the block pauses for 1000 ticks (the
spec's decision D6), or past 800 a stop is issued with no notification and no pause (its decisions D12 and D5). -/
def Obligations.AbortCountsThenPausesOrForcesStop : Prop :=
  ∀ (c : Cause) (s : State),
    (s.idle.toNat + 1 ≤ 800 →
      abortAttempt c s = { s with
        dec := some .fail, cause := some c, idle := s.idle + 1#10, phase := .gap, e := 0#18, gap := 1000#10 }) ∧
    (800 < s.idle.toNat + 1 →
      abortAttempt c s = { s with
        dec := some .fail, cause := some c, act := some ⟨.stop, 0#16⟩, idle := 0#10, phase := .wEdge, e := 0#18,
        gap := 0#10 })

/-- R72: a failing tick ends the attempt: nothing but the Control Loop's failure path happens in it, and what follows is a gap
or stage 1. -/
def Obligations.FailureEndsTheAttemptAtOnce : Prop :=
  ∀ s t : State, step s = .next t → t.dec = some .fail →
    t.speed = s.speed ∧ t.note = none ∧
    (t.act = none ∨ (t.act = some ⟨.stop, 0#16⟩ ∧ 800 < s.idle.toNat + 1)) ∧
    (t.phase = .wEdge ∨ t.phase = .gap) ∧ t.e = 0#18

/-- R93: "The idle reset happens for every code in [0, 255]"; the dispatch happens in the same tick, and no pause follows. -/
def Obligations.SuccessResetsIdleAndDispatches : Prop :=
  ∀ (s t : State) (c : Byte), step s = .next t → t.dec = some (.ok c) →
    t.idle = 0#10 ∧ t.phase = .wEdge ∧ t.e = 0#18 ∧ t.gap = 0#10 ∧
    ∃ u, exec (decodeCommand c) { s with act := none, note := none, idle := 0#10, dec := some (.ok c) } = .next u ∧
      t.speed = u.speed ∧ t.act = u.act ∧ t.note = u.note

/-- `speed` is "never written outside the dispatcher" (R16; reset apart): a tick that changes it dispatched one of the three
speed commands, and issues no actuation command (R79). -/
def Obligations.SpeedChangesOnlyBySpeedCommands : Prop :=
  ∀ s t : State, s.pins.rst = false → step s = .next t → t.speed ≠ s.speed →
    ∃ c, t.dec = some (.ok c) ∧ (c = 0x09#8 ∨ c = 0x15#8 ∨ c = 0x07#8) ∧ t.act = none

/-- An actuation command comes from the dispatch of a movement command, which leaves `speed` alone (R79), or it is the stop
forced by the 801st failure (R95, by the spec's decision D12); nothing else moves the robot. -/
def Obligations.ActuationsComeFromMovementsOrForcedStop : Prop :=
  ∀ (s t : State) (a : ActEvent), step s = .next t → t.act = some a →
    (t.dec = some .fail ∧ a = ⟨.stop, 0#16⟩ ∧ 800 < s.idle.toNat + 1) ∨
    (∃ c, t.dec = some (.ok c) ∧ (c = 0x18#8 ∨ c = 0x08#8 ∨ c = 0x1C#8 ∨ c = 0x5A#8 ∨ c = 0x52#8) ∧ t.speed = s.speed)

/-- The payload of a port group whose valid bit is 0 is 0, and `dec_code` is 0 on a failure (the spec's decision D10). -/
def Obligations.PayloadsAreZeroWithoutValid : Prop :=
  ∀ s : State,
    (s.actValid = false → s.actOp = 0#3 ∧ s.actDuty = 0#16) ∧
    (s.noteValid = false → s.noteAction = 0#4 ∧ s.noteCode = 0#8) ∧
    (s.decValid = false → s.decOk = false) ∧ (s.decOk = false → s.decCode = 0#8)

/-- R102: every failure looks the same on the ports and is treated alike by the Control Loop. -/
def Obligations.FailureCausesLookAlike : Prop :=
  ∀ (c c' : Cause) (s : State),
    (abortAttempt c s).decOk = false ∧ (abortAttempt c s).decCode = 0#8 ∧
    (abortAttempt c s).ports = (abortAttempt c' s).ports ∧
    { abortAttempt c s with cause := none } = { abortAttempt c' s with cause := none }

/-! ## The stages of an attempt, each over all the ticks of its wait -/

/-- R62, stage 1: any low within 150000 ticks of the start passes; 150001 high ticks are a timeout. -/
def Obligations.EdgeStagePassesOrTimesOut : Prop :=
  ∀ s : State, s.phase = .wEdge → s.e = 0#18 →
    (∀ d ≤ 150000, lineHolds .high d s → s.pinsAt d = ⟨false, .low⟩ →
      RunsTo (d + 1) s { quietAfter (d + 1) s with phase := .wLead, e := 1#18 }) ∧
    (lineHolds .high 150001 s → (s.pinsAt 150001).rst = false →
      RunsTo 150002 s (abortAttempt .edgeTimeout (quietAfter 150002 s)))

/-- R63, stage 2: a low run of `d` ticks (its first tick, P, is the tick before `s`) passes when 8000 <= d <= 10000. -/
def Obligations.LeadStageChecksItsWindow : Prop :=
  ∀ s : State, s.phase = .wLead → s.e = 1#18 →
    (∀ d, 1 ≤ d → d ≤ 12000 → lineHolds .low (d - 1) s → s.pinsAt (d - 1) = ⟨false, .high⟩ →
      RunsTo d s (if 8000 ≤ d ∧ d ≤ 10000 then { quietAfter d s with phase := .wSpace, e := 1#18 }
        else abortAttempt .leadWindow (quietAfter d s))) ∧
    (lineHolds .low 12000 s → (s.pinsAt 12000).rst = false →
      RunsTo 12001 s (abortAttempt .leadTimeout (quietAfter 12001 s)))

/-- R64, stage 3: a high run of `d` ticks passes when 3500 <= d <= 5000, and bit 0 is the next to be read. -/
def Obligations.SpaceStageChecksItsWindow : Prop :=
  ∀ s : State, s.phase = .wSpace → s.e = 1#18 →
    (∀ d, 1 ≤ d → d ≤ 7000 → lineHolds .high (d - 1) s → s.pinsAt (d - 1) = ⟨false, .low⟩ →
      RunsTo d s (if 3500 ≤ d ∧ d ≤ 5000 then { quietAfter d s with phase := .wBitLow, e := 1#18, bitIdx := 0#5 }
        else abortAttempt .spaceWindow (quietAfter d s))) ∧
    (lineHolds .high 7000 s → (s.pinsAt 7000).rst = false →
      RunsTo 7001 s (abortAttempt .spaceTimeout (quietAfter 7001 s)))

/-- R65, the low part of a bit: any low part of 1 to 1000 ticks passes. -/
def Obligations.BitLowStagePassesOrTimesOut : Prop :=
  ∀ s : State, s.phase = .wBitLow → s.e = 1#18 →
    (∀ d, 1 ≤ d → d ≤ 1000 → lineHolds .low (d - 1) s → s.pinsAt (d - 1) = ⟨false, .high⟩ →
      RunsTo d s { quietAfter d s with phase := .wBitHigh, e := 1#18 }) ∧
    (lineHolds .low 1000 s → (s.pinsAt 1000).rst = false →
      RunsTo 1001 s (abortAttempt (.bitLowTimeout s.bitIdx) (quietAfter 1001 s)))

/-- R66, R67 and R68, the high part of a bit: shorter than 200 aborts, longer than 1200 is a 1, longer than 2500 is a timeout;
the bit goes to its place in the frame, and after bit 31 stage 5 follows in the same tick. -/
def Obligations.BitHighStageMeasuresTheBit : Prop :=
  ∀ s : State, s.phase = .wBitHigh → s.e = 1#18 →
    (∀ d, 1 ≤ d → d ≤ 2500 → lineHolds .high (d - 1) s → s.pinsAt (d - 1) = ⟨false, .low⟩ →
      (d < 200 → RunsTo d s (abortAttempt (.bitShort s.bitIdx) (quietAfter d s))) ∧
      (200 ≤ d → s.bitIdx.toNat < 31 →
        RunsTo d s { quietAfter d s with
          phase := .wBitLow
          e := 1#18
          bitIdx := s.bitIdx + 1#5
          frame := replaceBit s.frame s.bitIdx (decide (1200 < d)) }) ∧
      (200 ≤ d → s.bitIdx = 31#5 → ∃ t, RunsTo (d - 1) s t ∧
        step t = checksumStage (replaceBit s.frame 31#5 (decide (1200 < d)))
          { quietAfter d s with frame := replaceBit s.frame 31#5 (decide (1200 < d)) })) ∧
    (lineHolds .high 2500 s → (s.pinsAt 2500).rst = false →
      RunsTo 2501 s (abortAttempt (.bitHighTimeout s.bitIdx) (quietAfter 2501 s)))

/-- The pause (R96, whose length and whose not sampling the line are the spec's decision D6): G ticks with no event, on any
line level, and then stage 1. -/
def Obligations.GapLastsItsTicks : Prop :=
  ∀ s : State, s.phase = .gap → 1 ≤ s.gap.toNat → noResetFor s.gap.toNat s →
    (∀ k, 1 ≤ k → k < s.gap.toNat → RunsTo k s { quietAfter k s with gap := s.gap - BitVec.ofNat 10 k }) ∧
    RunsTo s.gap.toNat s { quietAfter s.gap.toNat s with phase := .wEdge, e := 0#18, gap := 0#10 }

/-! ## Invariants -/

/-- Every tick keeps the ranges of the counters, of `idle` and of the output events (R13, R17, R18, R27). -/
def Obligations.EveryTickKeepsTheInvariant : Prop :=
  ∀ s t : State, inv s = true → step s = .next t → inv t = true

/-- The invariant holds at reset, and the reset speed is a reachable one (R114). -/
def Obligations.ResetStateMeetsTheInvariant : Prop :=
  inv State.reset = true ∧ speedReachable State.reset

/-- R99, "The loop never ends": from every state that meets the invariant, on any input, no tick stops. -/
def Obligations.NoRunStopsUnderTheInvariant : Prop :=
  ∀ s : State, inv s = true → ∀ n, ∃ t, RunsTo n s t ∧ inv t = true

/-- Every tick keeps `speed` among the eleven values 3 + 6553k (the spec marks R90 as derived from R85 to R87). -/
def Obligations.EveryTickKeepsSpeedReachable : Prop :=
  ∀ s t : State, speedReachable s → step s = .next t → speedReachable t

/-! ## Whole attempts and iterations -/

/-- LEVELWAIT (R54, with the boundary of the spec's decision D2): the result is the least elapsed count up to the timeout at
which the target level is sampled, and a failure resolves one tick past the timeout. -/
def Obligations.LevelWaitResultIsTheLeastElapsed : Prop :=
  ∀ (w : Wait) (x : Nat → Level) (s : Nat),
    (∀ e ≤ w.timeout, x (s + e) = w.target → (∀ j < e, x (s + j) ≠ w.target) → levelWait w x s = (some e, s + e)) ∧
    ((∀ e ≤ w.timeout, x (s + e) ≠ w.target) → levelWait w x s = (none, s + w.timeout + 1))

/-- The per-tick machine gives the result and the resolve tick of the functional `Decode()` (R61, R73; the spec marks this
agreement as derived), and shows no event before it. -/
def Obligations.MachineRefinesDecode : Prop :=
  ∀ s : State, atAttemptStart s → noResetFor ((decodeAttempt s.lineAt s.frame 0).2 + 1) s →
    ∃ t u, RunsTo (decodeAttempt s.lineAt s.frame 0).2 s t ∧ step t = .next u ∧
      u.dec = some (resultEvent (decodeAttempt s.lineAt s.frame 0).1) ∧
      (∀ c, (decodeAttempt s.lineAt s.frame 0).1 = .error c → u.cause = some c) ∧
      ∀ k v, 1 ≤ k → k ≤ (decodeAttempt s.lineAt s.frame 0).2 → RunsTo k s v →
        v.dec = none ∧ v.act = none ∧ v.note = none

/-- The machine carries out one iteration of the Control Loop as the functional `ITERATE` does: at the resolve tick the `dec`
event with the dispatcher's `act` and `note`, or the forced stop, or neither; at every other tick of the iteration no event; and
then `idle`, `speed` and the start of the next attempt (R92; the pause and the action gap are the spec's decisions D6 and D5,
the form of the forced stop its decision D12). -/
def Obligations.MachineRefinesIterate : Prop :=
  ∀ (s : State) (r : Iteration), r = iterate s.lineAt s.frame s.idle.toNat s.speed 0 →
    atAttemptStart s → s.idle.toNat ≤ 800 → noResetFor r.start s →
    ∃ t u v, RunsTo r.resolve s t ∧ step t = .next u ∧ u.dec = some r.dec ∧ u.act = r.act ∧ u.note = r.note ∧
      (∀ k w, 1 ≤ k → k ≤ r.start → k ≠ r.resolve + 1 → RunsTo k s w →
        w.dec = none ∧ w.act = none ∧ w.note = none) ∧
      RunsTo r.start s v ∧ atAttemptStart v ∧ v.idle.toNat = r.idle ∧ v.speed = r.speed

/-- The attempt that starts now resolves at one tick `n`, at least 1 and at most 277001 ticks after its start, on any input: that
tick reports its result and no earlier tick of it reports one (the spec marks R77 as derived; R99: the block "never blocks for
ever on any input"). -/
def Obligations.AttemptResolvesWithin277001Ticks : Prop :=
  ∀ s : State, atAttemptStart s → noResetFor 277002 s →
    ∃ n t, 1 ≤ n ∧ n ≤ 277001 ∧ RunsTo (n + 1) s t ∧ t.dec ≠ none ∧
      ∀ k v, 1 ≤ k → k ≤ n → RunsTo k s v → v.dec = none

/-- Whatever stood in the frame register at the start of an attempt never reaches a port (the spec marks R74 as derived): two
runs that differ in it alone agree on everything but the frame, at every tick. -/
def Obligations.OldFrameNeverReachesAnOutput : Prop :=
  ∀ (s t : State) (f : FrameWord) (n : Nat), s.phase = .wEdge → RunsTo n s t →
    ∃ u, RunsTo n { s with frame := f } u ∧ u.ports = t.ports ∧ { u with frame := t.frame } = t

/-- DECODE AND ENCODE AGREE ON THE WIRE (the spec marks R76 as derived): a NEC train of any accepted durations for any
address and any well-formed instruction is decoded to that instruction, which runs at the first tick of the terminating low. -/
def Obligations.PulseTrainRunsItsInstruction : Prop :=
  ∀ (s : State) (a : Byte) (i : Instr) (a0 lead space : Nat) (lo hi : Nat → Nat),
    atAttemptStart s → i.wellFormed = true → a0 ≤ 150000 → 8000 ≤ lead → lead ≤ 10000 → 3500 ≤ space → space ≤ 5000 →
    (∀ k < 32, 1 ≤ lo k ∧ lo k ≤ 1000 ∧
      (if (encodeFrame a i).getLsbD k then 1201 ≤ hi k ∧ hi k ≤ 2500 else 200 ≤ hi k ∧ hi k ≤ 1200)) →
    carries s ((.high, a0) :: necShape lead space lo hi) →
    ∃ t u, RunsTo (a0 + lead + space + ((bitCells lo hi 0 32).map Prod.snd).sum) s t ∧
      exec i { quietAfter (a0 + lead + space + ((bitCells lo hi 0 32).map Prod.snd).sum + 1) s with
        phase := .wBitHigh
        bitIdx := 31#5
        frame := encodeFrame a i
        idle := 0#10
        dec := some (.ok (encode i)) } = .next u ∧
      step t = .next { u with phase := .wEdge, e := 0#18, gap := 0#10 }

/-- With the line high for ever and nothing counted yet, the first forced stop comes at tick 120951601, which is the 801st
failure (the spec marks R100 as derived; the pause of 1000 ticks is its decision D6). -/
def Obligations.IdleLineForcesStopAtTick120951601 : Prop :=
  ∀ s : State, atAttemptStart s → s.idle = 0#10 → (∀ n, s.pinsAt n = ⟨false, .high⟩) →
    (∃ t, RunsTo 120951602 s t ∧ t.act = some ⟨.stop, 0#16⟩ ∧ t.note = none ∧ t.idle = 0#10 ∧ atAttemptStart t) ∧
    ∀ k t, 1 ≤ k → k < 120951602 → RunsTo k s t → t.act = none
end

