-- ==== Sys2Proof/Laws/Decode.lean ====
section
/-! SUPPORT. What the decoder can answer, said once: the bytes of a packed frame and the three outcomes of stage 5. -/

namespace Sys2Proof

/-- Bit i of the frame is arrival bit i: bit `i mod 8` of byte `i div 8` (R29, R30). -/
theorem getLsbD_packFrame (b0 b1 b2 b3 : Byte) (i : Nat) (hi : i < 32) :
    (packFrame b0 b1 b2 b3).getLsbD i =
      if i < 8 then b0.getLsbD i else if i < 16 then b1.getLsbD (i - 8)
      else if i < 24 then b2.getLsbD (i - 16) else b3.getLsbD (i - 24) := by
  simp only [packFrame, BitVec.getLsbD_or, BitVec.getLsbD_shiftLeft, BitVec.getLsbD_setWidth]
  by_cases h8 : i < 8 <;> by_cases h16 : i < 16 <;> by_cases h24 : i < 24 <;> first | omega | skip
  · simp [h8, h16, h24, hi]
  · simp [h8, h16, h24, hi, show i - 8 < 32 by omega, BitVec.getLsbD_of_ge b0 i (by omega)]
  · simp [h8, h16, h24, hi, show i - 8 < 32 by omega, show i - 16 < 32 by omega, BitVec.getLsbD_of_ge b0 i (by omega),
      BitVec.getLsbD_of_ge b1 (i - 8) (by omega)]
  · simp [h8, h16, h24, hi, show i - 8 < 32 by omega, show i - 16 < 32 by omega, show i - 24 < 32 by omega,
      BitVec.getLsbD_of_ge b0 i (by omega), BitVec.getLsbD_of_ge b1 (i - 8) (by omega),
      BitVec.getLsbD_of_ge b2 (i - 16) (by omega)]

theorem getLsbD_frameByte (k : Nat) (f : FrameWord) (i : Nat) :
    (frameByte k f).getLsbD i = (decide (i < 8) && f.getLsbD (8 * k + i)) := by
  simp [frameByte]

@[simp] theorem frameByte_zero_packFrame (b0 b1 b2 b3 : Byte) : frameByte 0 (packFrame b0 b1 b2 b3) = b0 := by
  apply BitVec.eq_of_getLsbD_eq
  intro i hi
  rw [getLsbD_frameByte, getLsbD_packFrame _ _ _ _ _ (by omega)]
  simp [hi]

@[simp] theorem frameByte_one_packFrame (b0 b1 b2 b3 : Byte) : frameByte 1 (packFrame b0 b1 b2 b3) = b1 := by
  apply BitVec.eq_of_getLsbD_eq
  intro i hi
  rw [getLsbD_frameByte, getLsbD_packFrame _ _ _ _ _ (by omega)]
  simp [hi, show 8 + i < 16 by omega]

@[simp] theorem frameByte_two_packFrame (b0 b1 b2 b3 : Byte) : frameByte 2 (packFrame b0 b1 b2 b3) = b2 := by
  apply BitVec.eq_of_getLsbD_eq
  intro i hi
  rw [getLsbD_frameByte, getLsbD_packFrame _ _ _ _ _ (by omega)]
  simp [hi, show ¬ 16 + i < 8 by omega, show 16 + i < 24 by omega]

@[simp] theorem frameByte_three_packFrame (b0 b1 b2 b3 : Byte) : frameByte 3 (packFrame b0 b1 b2 b3) = b3 := by
  apply BitVec.eq_of_getLsbD_eq
  intro i hi
  rw [getLsbD_frameByte, getLsbD_packFrame _ _ _ _ _ (by omega)]
  simp [hi, show ¬ 24 + i < 8 by omega, show ¬ 24 + i < 16 by omega]

/-- A frame is accepted when both pairs check, and then it spells the command of its third byte. -/
theorem decodeFrame_ok_iff (f : FrameWord) (i : Instr) :
    decodeFrame f = .ok i ↔
      pairChecks (frameByte 0 f) (frameByte 1 f) = true ∧ pairChecks (frameByte 2 f) (frameByte 3 f) = true ∧
        decodeCommand (commandByte f) = i := by
  unfold decodeFrame
  split
  · rename_i h; simp at h; simp [h]
  · rename_i h; simp at h
    split
    · rename_i h'; simp at h'; simp [h']
    · rename_i h'; simp at h'; simp [h, h']

/-- The address pair is tested first. -/
theorem decodeFrame_addr_iff (f : FrameWord) :
    decodeFrame f = .error .addrCheck ↔ pairChecks (frameByte 0 f) (frameByte 1 f) = false := by
  unfold decodeFrame
  split
  · rename_i h; simpa using h
  · rename_i h; simp at h
    split <;> simp [h]

theorem decodeFrame_cmd_iff (f : FrameWord) :
    decodeFrame f = .error .cmdCheck ↔
      pairChecks (frameByte 0 f) (frameByte 1 f) = true ∧ pairChecks (frameByte 2 f) (frameByte 3 f) = false := by
  unfold decodeFrame
  split
  · rename_i h; simp at h; simp [h]
  · rename_i h; simp at h
    split
    · rename_i h'; simp at h'; simp [h, h']
    · rename_i h'; simp at h'; simp [h']

/-- A code the table does not list is UNKNOWN with itself as operand. -/
theorem decodeCommand_unlisted {c : Byte} (h : Config.listedCodes.contains c = false) : decodeCommand c = .unknown c := by
  have hl : commandTable.lookup c = none := by
    simp only [Config.listedCodes, List.contains_cons, Bool.or_eq_false_iff] at h
    simp [commandTable, List.lookup, h]
  simp [decodeCommand, hl]

end Sys2Proof
end

