-- ==== Sys2Proof/Laws/State.lean ====
section
/-! SUPPORT. One lemma per field per update of the state, each true by `rfl`, and the parameters of the profile as numerals:
the project's simp set, so that no proof unfolds a record update. -/

namespace Sys2Proof.Machine

@[simp] theorem advancePins_phase (s : State) : (advancePins s).phase = s.phase := rfl
@[simp] theorem advancePins_e (s : State) : (advancePins s).e = s.e := rfl
@[simp] theorem advancePins_bitIdx (s : State) : (advancePins s).bitIdx = s.bitIdx := rfl
@[simp] theorem advancePins_frame (s : State) : (advancePins s).frame = s.frame := rfl
@[simp] theorem advancePins_speed (s : State) : (advancePins s).speed = s.speed := rfl
@[simp] theorem advancePins_idle (s : State) : (advancePins s).idle = s.idle := rfl
@[simp] theorem advancePins_gap (s : State) : (advancePins s).gap = s.gap := rfl
@[simp] theorem advancePins_dec (s : State) : (advancePins s).dec = s.dec := rfl
@[simp] theorem advancePins_act (s : State) : (advancePins s).act = s.act := rfl
@[simp] theorem advancePins_note (s : State) : (advancePins s).note = s.note := rfl
@[simp] theorem advancePins_cause (s : State) : (advancePins s).cause = s.cause := rfl
@[simp] theorem advancePins_inputs (s : State) : (advancePins s).inputs = dropTick s.inputs := rfl
@[simp] theorem advancePins_clock (s : State) : (advancePins s).clock = s.clock + 1 := rfl

@[simp] theorem advanceBy_phase (n : Nat) (s : State) : (advanceBy n s).phase = s.phase := rfl
@[simp] theorem advanceBy_e (n : Nat) (s : State) : (advanceBy n s).e = s.e := rfl
@[simp] theorem advanceBy_bitIdx (n : Nat) (s : State) : (advanceBy n s).bitIdx = s.bitIdx := rfl
@[simp] theorem advanceBy_frame (n : Nat) (s : State) : (advanceBy n s).frame = s.frame := rfl
@[simp] theorem advanceBy_speed (n : Nat) (s : State) : (advanceBy n s).speed = s.speed := rfl
@[simp] theorem advanceBy_idle (n : Nat) (s : State) : (advanceBy n s).idle = s.idle := rfl
@[simp] theorem advanceBy_gap (n : Nat) (s : State) : (advanceBy n s).gap = s.gap := rfl
@[simp] theorem advanceBy_dec (n : Nat) (s : State) : (advanceBy n s).dec = s.dec := rfl
@[simp] theorem advanceBy_act (n : Nat) (s : State) : (advanceBy n s).act = s.act := rfl
@[simp] theorem advanceBy_note (n : Nat) (s : State) : (advanceBy n s).note = s.note := rfl
@[simp] theorem advanceBy_cause (n : Nat) (s : State) : (advanceBy n s).cause = s.cause := rfl
@[simp] theorem advanceBy_inputs (n : Nat) (s : State) : (advanceBy n s).inputs = dropTicks n s.inputs := rfl
@[simp] theorem advanceBy_clock (n : Nat) (s : State) : (advanceBy n s).clock = s.clock + n := rfl

@[simp] theorem clearOutputs_phase (s : State) : (clearOutputs s).phase = s.phase := rfl
@[simp] theorem clearOutputs_e (s : State) : (clearOutputs s).e = s.e := rfl
@[simp] theorem clearOutputs_bitIdx (s : State) : (clearOutputs s).bitIdx = s.bitIdx := rfl
@[simp] theorem clearOutputs_frame (s : State) : (clearOutputs s).frame = s.frame := rfl
@[simp] theorem clearOutputs_speed (s : State) : (clearOutputs s).speed = s.speed := rfl
@[simp] theorem clearOutputs_idle (s : State) : (clearOutputs s).idle = s.idle := rfl
@[simp] theorem clearOutputs_gap (s : State) : (clearOutputs s).gap = s.gap := rfl
@[simp] theorem clearOutputs_dec (s : State) : (clearOutputs s).dec = none := rfl
@[simp] theorem clearOutputs_act (s : State) : (clearOutputs s).act = none := rfl
@[simp] theorem clearOutputs_note (s : State) : (clearOutputs s).note = none := rfl
@[simp] theorem clearOutputs_cause (s : State) : (clearOutputs s).cause = none := rfl
@[simp] theorem clearOutputs_inputs (s : State) : (clearOutputs s).inputs = s.inputs := rfl
@[simp] theorem clearOutputs_clock (s : State) : (clearOutputs s).clock = s.clock := rfl

@[simp] theorem emitDecOk_phase (c : Byte) (s : State) : (emitDecOk c s).phase = s.phase := rfl
@[simp] theorem emitDecOk_e (c : Byte) (s : State) : (emitDecOk c s).e = s.e := rfl
@[simp] theorem emitDecOk_bitIdx (c : Byte) (s : State) : (emitDecOk c s).bitIdx = s.bitIdx := rfl
@[simp] theorem emitDecOk_frame (c : Byte) (s : State) : (emitDecOk c s).frame = s.frame := rfl
@[simp] theorem emitDecOk_speed (c : Byte) (s : State) : (emitDecOk c s).speed = s.speed := rfl
@[simp] theorem emitDecOk_idle (c : Byte) (s : State) : (emitDecOk c s).idle = s.idle := rfl
@[simp] theorem emitDecOk_gap (c : Byte) (s : State) : (emitDecOk c s).gap = s.gap := rfl
@[simp] theorem emitDecOk_dec (c : Byte) (s : State) : (emitDecOk c s).dec = some (.ok c) := rfl
@[simp] theorem emitDecOk_act (c : Byte) (s : State) : (emitDecOk c s).act = s.act := rfl
@[simp] theorem emitDecOk_note (c : Byte) (s : State) : (emitDecOk c s).note = s.note := rfl
@[simp] theorem emitDecOk_cause (c : Byte) (s : State) : (emitDecOk c s).cause = s.cause := rfl
@[simp] theorem emitDecOk_inputs (c : Byte) (s : State) : (emitDecOk c s).inputs = s.inputs := rfl
@[simp] theorem emitDecOk_clock (c : Byte) (s : State) : (emitDecOk c s).clock = s.clock := rfl

@[simp] theorem emitDecFail_phase (c : Cause) (s : State) : (emitDecFail c s).phase = s.phase := rfl
@[simp] theorem emitDecFail_e (c : Cause) (s : State) : (emitDecFail c s).e = s.e := rfl
@[simp] theorem emitDecFail_bitIdx (c : Cause) (s : State) : (emitDecFail c s).bitIdx = s.bitIdx := rfl
@[simp] theorem emitDecFail_frame (c : Cause) (s : State) : (emitDecFail c s).frame = s.frame := rfl
@[simp] theorem emitDecFail_speed (c : Cause) (s : State) : (emitDecFail c s).speed = s.speed := rfl
@[simp] theorem emitDecFail_idle (c : Cause) (s : State) : (emitDecFail c s).idle = s.idle := rfl
@[simp] theorem emitDecFail_gap (c : Cause) (s : State) : (emitDecFail c s).gap = s.gap := rfl
@[simp] theorem emitDecFail_dec (c : Cause) (s : State) : (emitDecFail c s).dec = some .fail := rfl
@[simp] theorem emitDecFail_act (c : Cause) (s : State) : (emitDecFail c s).act = s.act := rfl
@[simp] theorem emitDecFail_note (c : Cause) (s : State) : (emitDecFail c s).note = s.note := rfl
@[simp] theorem emitDecFail_cause (c : Cause) (s : State) : (emitDecFail c s).cause = some c := rfl
@[simp] theorem emitDecFail_inputs (c : Cause) (s : State) : (emitDecFail c s).inputs = s.inputs := rfl
@[simp] theorem emitDecFail_clock (c : Cause) (s : State) : (emitDecFail c s).clock = s.clock := rfl

@[simp] theorem emitAct_phase (op : ActOp) (d : Duty) (s : State) : (emitAct op d s).phase = s.phase := rfl
@[simp] theorem emitAct_e (op : ActOp) (d : Duty) (s : State) : (emitAct op d s).e = s.e := rfl
@[simp] theorem emitAct_bitIdx (op : ActOp) (d : Duty) (s : State) : (emitAct op d s).bitIdx = s.bitIdx := rfl
@[simp] theorem emitAct_frame (op : ActOp) (d : Duty) (s : State) : (emitAct op d s).frame = s.frame := rfl
@[simp] theorem emitAct_speed (op : ActOp) (d : Duty) (s : State) : (emitAct op d s).speed = s.speed := rfl
@[simp] theorem emitAct_idle (op : ActOp) (d : Duty) (s : State) : (emitAct op d s).idle = s.idle := rfl
@[simp] theorem emitAct_gap (op : ActOp) (d : Duty) (s : State) : (emitAct op d s).gap = s.gap := rfl
@[simp] theorem emitAct_dec (op : ActOp) (d : Duty) (s : State) : (emitAct op d s).dec = s.dec := rfl
@[simp] theorem emitAct_act (op : ActOp) (d : Duty) (s : State) : (emitAct op d s).act = some ⟨op, d⟩ := rfl
@[simp] theorem emitAct_note (op : ActOp) (d : Duty) (s : State) : (emitAct op d s).note = s.note := rfl
@[simp] theorem emitAct_cause (op : ActOp) (d : Duty) (s : State) : (emitAct op d s).cause = s.cause := rfl
@[simp] theorem emitAct_inputs (op : ActOp) (d : Duty) (s : State) : (emitAct op d s).inputs = s.inputs := rfl
@[simp] theorem emitAct_clock (op : ActOp) (d : Duty) (s : State) : (emitAct op d s).clock = s.clock := rfl

@[simp] theorem emitNote_phase (a : NoteAction) (c : Byte) (s : State) : (emitNote a c s).phase = s.phase := rfl
@[simp] theorem emitNote_e (a : NoteAction) (c : Byte) (s : State) : (emitNote a c s).e = s.e := rfl
@[simp] theorem emitNote_bitIdx (a : NoteAction) (c : Byte) (s : State) : (emitNote a c s).bitIdx = s.bitIdx := rfl
@[simp] theorem emitNote_frame (a : NoteAction) (c : Byte) (s : State) : (emitNote a c s).frame = s.frame := rfl
@[simp] theorem emitNote_speed (a : NoteAction) (c : Byte) (s : State) : (emitNote a c s).speed = s.speed := rfl
@[simp] theorem emitNote_idle (a : NoteAction) (c : Byte) (s : State) : (emitNote a c s).idle = s.idle := rfl
@[simp] theorem emitNote_gap (a : NoteAction) (c : Byte) (s : State) : (emitNote a c s).gap = s.gap := rfl
@[simp] theorem emitNote_dec (a : NoteAction) (c : Byte) (s : State) : (emitNote a c s).dec = s.dec := rfl
@[simp] theorem emitNote_act (a : NoteAction) (c : Byte) (s : State) : (emitNote a c s).act = s.act := rfl
@[simp] theorem emitNote_note (a : NoteAction) (c : Byte) (s : State) : (emitNote a c s).note = some ⟨a, c⟩ := rfl
@[simp] theorem emitNote_cause (a : NoteAction) (c : Byte) (s : State) : (emitNote a c s).cause = s.cause := rfl
@[simp] theorem emitNote_inputs (a : NoteAction) (c : Byte) (s : State) : (emitNote a c s).inputs = s.inputs := rfl
@[simp] theorem emitNote_clock (a : NoteAction) (c : Byte) (s : State) : (emitNote a c s).clock = s.clock := rfl

@[simp] theorem setSpeed_phase (v : Duty) (s : State) : (setSpeed v s).phase = s.phase := rfl
@[simp] theorem setSpeed_e (v : Duty) (s : State) : (setSpeed v s).e = s.e := rfl
@[simp] theorem setSpeed_bitIdx (v : Duty) (s : State) : (setSpeed v s).bitIdx = s.bitIdx := rfl
@[simp] theorem setSpeed_frame (v : Duty) (s : State) : (setSpeed v s).frame = s.frame := rfl
@[simp] theorem setSpeed_speed (v : Duty) (s : State) : (setSpeed v s).speed = v := rfl
@[simp] theorem setSpeed_idle (v : Duty) (s : State) : (setSpeed v s).idle = s.idle := rfl
@[simp] theorem setSpeed_gap (v : Duty) (s : State) : (setSpeed v s).gap = s.gap := rfl
@[simp] theorem setSpeed_dec (v : Duty) (s : State) : (setSpeed v s).dec = s.dec := rfl
@[simp] theorem setSpeed_act (v : Duty) (s : State) : (setSpeed v s).act = s.act := rfl
@[simp] theorem setSpeed_note (v : Duty) (s : State) : (setSpeed v s).note = s.note := rfl
@[simp] theorem setSpeed_cause (v : Duty) (s : State) : (setSpeed v s).cause = s.cause := rfl
@[simp] theorem setSpeed_inputs (v : Duty) (s : State) : (setSpeed v s).inputs = s.inputs := rfl
@[simp] theorem setSpeed_clock (v : Duty) (s : State) : (setSpeed v s).clock = s.clock := rfl

@[simp] theorem setIdle_phase (n : Nat) (s : State) : (setIdle n s).phase = s.phase := rfl
@[simp] theorem setIdle_e (n : Nat) (s : State) : (setIdle n s).e = s.e := rfl
@[simp] theorem setIdle_bitIdx (n : Nat) (s : State) : (setIdle n s).bitIdx = s.bitIdx := rfl
@[simp] theorem setIdle_frame (n : Nat) (s : State) : (setIdle n s).frame = s.frame := rfl
@[simp] theorem setIdle_speed (n : Nat) (s : State) : (setIdle n s).speed = s.speed := rfl
@[simp] theorem setIdle_idle (n : Nat) (s : State) : (setIdle n s).idle = BitVec.ofNat 10 n := rfl
@[simp] theorem setIdle_gap (n : Nat) (s : State) : (setIdle n s).gap = s.gap := rfl
@[simp] theorem setIdle_dec (n : Nat) (s : State) : (setIdle n s).dec = s.dec := rfl
@[simp] theorem setIdle_act (n : Nat) (s : State) : (setIdle n s).act = s.act := rfl
@[simp] theorem setIdle_note (n : Nat) (s : State) : (setIdle n s).note = s.note := rfl
@[simp] theorem setIdle_cause (n : Nat) (s : State) : (setIdle n s).cause = s.cause := rfl
@[simp] theorem setIdle_inputs (n : Nat) (s : State) : (setIdle n s).inputs = s.inputs := rfl
@[simp] theorem setIdle_clock (n : Nat) (s : State) : (setIdle n s).clock = s.clock := rfl

@[simp] theorem setFrame_phase (f : FrameWord) (s : State) : (setFrame f s).phase = s.phase := rfl
@[simp] theorem setFrame_e (f : FrameWord) (s : State) : (setFrame f s).e = s.e := rfl
@[simp] theorem setFrame_bitIdx (f : FrameWord) (s : State) : (setFrame f s).bitIdx = s.bitIdx := rfl
@[simp] theorem setFrame_frame (f : FrameWord) (s : State) : (setFrame f s).frame = f := rfl
@[simp] theorem setFrame_speed (f : FrameWord) (s : State) : (setFrame f s).speed = s.speed := rfl
@[simp] theorem setFrame_idle (f : FrameWord) (s : State) : (setFrame f s).idle = s.idle := rfl
@[simp] theorem setFrame_gap (f : FrameWord) (s : State) : (setFrame f s).gap = s.gap := rfl
@[simp] theorem setFrame_dec (f : FrameWord) (s : State) : (setFrame f s).dec = s.dec := rfl
@[simp] theorem setFrame_act (f : FrameWord) (s : State) : (setFrame f s).act = s.act := rfl
@[simp] theorem setFrame_note (f : FrameWord) (s : State) : (setFrame f s).note = s.note := rfl
@[simp] theorem setFrame_cause (f : FrameWord) (s : State) : (setFrame f s).cause = s.cause := rfl
@[simp] theorem setFrame_inputs (f : FrameWord) (s : State) : (setFrame f s).inputs = s.inputs := rfl
@[simp] theorem setFrame_clock (f : FrameWord) (s : State) : (setFrame f s).clock = s.clock := rfl

@[simp] theorem setBitIdx_phase (i : BitVec 5) (s : State) : (setBitIdx i s).phase = s.phase := rfl
@[simp] theorem setBitIdx_e (i : BitVec 5) (s : State) : (setBitIdx i s).e = s.e := rfl
@[simp] theorem setBitIdx_bitIdx (i : BitVec 5) (s : State) : (setBitIdx i s).bitIdx = i := rfl
@[simp] theorem setBitIdx_frame (i : BitVec 5) (s : State) : (setBitIdx i s).frame = s.frame := rfl
@[simp] theorem setBitIdx_speed (i : BitVec 5) (s : State) : (setBitIdx i s).speed = s.speed := rfl
@[simp] theorem setBitIdx_idle (i : BitVec 5) (s : State) : (setBitIdx i s).idle = s.idle := rfl
@[simp] theorem setBitIdx_gap (i : BitVec 5) (s : State) : (setBitIdx i s).gap = s.gap := rfl
@[simp] theorem setBitIdx_dec (i : BitVec 5) (s : State) : (setBitIdx i s).dec = s.dec := rfl
@[simp] theorem setBitIdx_act (i : BitVec 5) (s : State) : (setBitIdx i s).act = s.act := rfl
@[simp] theorem setBitIdx_note (i : BitVec 5) (s : State) : (setBitIdx i s).note = s.note := rfl
@[simp] theorem setBitIdx_cause (i : BitVec 5) (s : State) : (setBitIdx i s).cause = s.cause := rfl
@[simp] theorem setBitIdx_inputs (i : BitVec 5) (s : State) : (setBitIdx i s).inputs = s.inputs := rfl
@[simp] theorem setBitIdx_clock (i : BitVec 5) (s : State) : (setBitIdx i s).clock = s.clock := rfl

@[simp] theorem setE_phase (v : BitVec 18) (s : State) : (setE v s).phase = s.phase := rfl
@[simp] theorem setE_e (v : BitVec 18) (s : State) : (setE v s).e = v := rfl
@[simp] theorem setE_bitIdx (v : BitVec 18) (s : State) : (setE v s).bitIdx = s.bitIdx := rfl
@[simp] theorem setE_frame (v : BitVec 18) (s : State) : (setE v s).frame = s.frame := rfl
@[simp] theorem setE_speed (v : BitVec 18) (s : State) : (setE v s).speed = s.speed := rfl
@[simp] theorem setE_idle (v : BitVec 18) (s : State) : (setE v s).idle = s.idle := rfl
@[simp] theorem setE_gap (v : BitVec 18) (s : State) : (setE v s).gap = s.gap := rfl
@[simp] theorem setE_dec (v : BitVec 18) (s : State) : (setE v s).dec = s.dec := rfl
@[simp] theorem setE_act (v : BitVec 18) (s : State) : (setE v s).act = s.act := rfl
@[simp] theorem setE_note (v : BitVec 18) (s : State) : (setE v s).note = s.note := rfl
@[simp] theorem setE_cause (v : BitVec 18) (s : State) : (setE v s).cause = s.cause := rfl
@[simp] theorem setE_inputs (v : BitVec 18) (s : State) : (setE v s).inputs = s.inputs := rfl
@[simp] theorem setE_clock (v : BitVec 18) (s : State) : (setE v s).clock = s.clock := rfl

@[simp] theorem setGap_phase (v : BitVec 10) (s : State) : (setGap v s).phase = s.phase := rfl
@[simp] theorem setGap_e (v : BitVec 10) (s : State) : (setGap v s).e = s.e := rfl
@[simp] theorem setGap_bitIdx (v : BitVec 10) (s : State) : (setGap v s).bitIdx = s.bitIdx := rfl
@[simp] theorem setGap_frame (v : BitVec 10) (s : State) : (setGap v s).frame = s.frame := rfl
@[simp] theorem setGap_speed (v : BitVec 10) (s : State) : (setGap v s).speed = s.speed := rfl
@[simp] theorem setGap_idle (v : BitVec 10) (s : State) : (setGap v s).idle = s.idle := rfl
@[simp] theorem setGap_gap (v : BitVec 10) (s : State) : (setGap v s).gap = v := rfl
@[simp] theorem setGap_dec (v : BitVec 10) (s : State) : (setGap v s).dec = s.dec := rfl
@[simp] theorem setGap_act (v : BitVec 10) (s : State) : (setGap v s).act = s.act := rfl
@[simp] theorem setGap_note (v : BitVec 10) (s : State) : (setGap v s).note = s.note := rfl
@[simp] theorem setGap_cause (v : BitVec 10) (s : State) : (setGap v s).cause = s.cause := rfl
@[simp] theorem setGap_inputs (v : BitVec 10) (s : State) : (setGap v s).inputs = s.inputs := rfl
@[simp] theorem setGap_clock (v : BitVec 10) (s : State) : (setGap v s).clock = s.clock := rfl

@[simp] theorem enterWait_phase (p : Phase) (s : State) : (enterWait p s).phase = p := rfl
@[simp] theorem enterWait_e (p : Phase) (s : State) : (enterWait p s).e = 1#18 := rfl
@[simp] theorem enterWait_bitIdx (p : Phase) (s : State) : (enterWait p s).bitIdx = s.bitIdx := rfl
@[simp] theorem enterWait_frame (p : Phase) (s : State) : (enterWait p s).frame = s.frame := rfl
@[simp] theorem enterWait_speed (p : Phase) (s : State) : (enterWait p s).speed = s.speed := rfl
@[simp] theorem enterWait_idle (p : Phase) (s : State) : (enterWait p s).idle = s.idle := rfl
@[simp] theorem enterWait_gap (p : Phase) (s : State) : (enterWait p s).gap = s.gap := rfl
@[simp] theorem enterWait_dec (p : Phase) (s : State) : (enterWait p s).dec = s.dec := rfl
@[simp] theorem enterWait_act (p : Phase) (s : State) : (enterWait p s).act = s.act := rfl
@[simp] theorem enterWait_note (p : Phase) (s : State) : (enterWait p s).note = s.note := rfl
@[simp] theorem enterWait_cause (p : Phase) (s : State) : (enterWait p s).cause = s.cause := rfl
@[simp] theorem enterWait_inputs (p : Phase) (s : State) : (enterWait p s).inputs = s.inputs := rfl
@[simp] theorem enterWait_clock (p : Phase) (s : State) : (enterWait p s).clock = s.clock := rfl

@[simp] theorem resetRegisters_phase (s : State) : (resetRegisters s).phase = .wEdge := rfl
@[simp] theorem resetRegisters_e (s : State) : (resetRegisters s).e = 0#18 := rfl
@[simp] theorem resetRegisters_bitIdx (s : State) : (resetRegisters s).bitIdx = 0#5 := rfl
@[simp] theorem resetRegisters_frame (s : State) : (resetRegisters s).frame = 0#32 := rfl
@[simp] theorem resetRegisters_speed (s : State) : (resetRegisters s).speed = 32768#16 := rfl
@[simp] theorem resetRegisters_idle (s : State) : (resetRegisters s).idle = 0#10 := rfl
@[simp] theorem resetRegisters_gap (s : State) : (resetRegisters s).gap = 0#10 := rfl
@[simp] theorem resetRegisters_dec (s : State) : (resetRegisters s).dec = none := rfl
@[simp] theorem resetRegisters_act (s : State) : (resetRegisters s).act = none := rfl
@[simp] theorem resetRegisters_note (s : State) : (resetRegisters s).note = none := rfl
@[simp] theorem resetRegisters_cause (s : State) : (resetRegisters s).cause = none := rfl
@[simp] theorem resetRegisters_inputs (s : State) : (resetRegisters s).inputs = s.inputs := rfl
@[simp] theorem resetRegisters_clock (s : State) : (resetRegisters s).clock = s.clock := rfl

end Sys2Proof.Machine

namespace Sys2Proof.Config

@[simp] theorem profile_tEdgeTo : profile.tEdgeTo = 150000 := rfl
@[simp] theorem profile_tLeadTo : profile.tLeadTo = 12000 := rfl
@[simp] theorem profile_tLeadMin : profile.tLeadMin = 8000 := rfl
@[simp] theorem profile_tLeadMax : profile.tLeadMax = 10000 := rfl
@[simp] theorem profile_tSpaceTo : profile.tSpaceTo = 7000 := rfl
@[simp] theorem profile_tSpaceMin : profile.tSpaceMin = 3500 := rfl
@[simp] theorem profile_tSpaceMax : profile.tSpaceMax = 5000 := rfl
@[simp] theorem profile_tBitLowTo : profile.tBitLowTo = 1000 := rfl
@[simp] theorem profile_tBitHighTo : profile.tBitHighTo = 2500 := rfl
@[simp] theorem profile_tBitMin : profile.tBitMin = 200 := rfl
@[simp] theorem profile_tOne : profile.tOne = 1200 := rfl
@[simp] theorem profile_nBits : profile.nBits = 32 := rfl
@[simp] theorem profile_nBytes : profile.nBytes = 4 := rfl
@[simp] theorem profile_checkSum : profile.checkSum = 255 := rfl
@[simp] theorem profile_idleLimit : profile.idleLimit = 800 := rfl
@[simp] theorem profile_pauseUs : profile.pauseUs = 1000 := rfl
@[simp] theorem profile_actionGapUs : profile.actionGapUs = 0 := rfl
@[simp] theorem profile_speedW : profile.speedW = 16 := rfl
@[simp] theorem profile_speedLimit : profile.speedLimit = 65536 := rfl
@[simp] theorem profile_speedReset : profile.speedReset = 32768 := rfl
@[simp] theorem profile_speedStep : profile.speedStep = 6553 := rfl
@[simp] theorem profile_turnSpeed : profile.turnSpeed = 13107 := rfl
@[simp] theorem profile_codeW : profile.codeW = 8 := rfl
@[simp] theorem profile_tickUs : profile.tickUs = 1 := rfl
@[simp] theorem profile_elapsedW : profile.elapsedW = 18 := rfl
@[simp] theorem profile_bitIdxW : profile.bitIdxW = 5 := rfl
@[simp] theorem profile_idleW : profile.idleW = 10 := rfl
@[simp] theorem profile_gapW : profile.gapW = 10 := rfl
@[simp] theorem profile_measJitterUs : profile.measJitterUs = 0 := rfl

end Sys2Proof.Config
end

