-- ==== Sys2Proof/Laws/Inputs.lean ====
section
/-! SUPPORT. The input trace: how the pins ahead of a state move with it, that a listed train is carried as written, and
that the pins depend on the trace fields alone. -/

namespace Sys2Proof.Machine

/-- The pins are a function of the listed runs and the clock. -/
theorem pins_congr {s t : State} (hi : s.inputs = t.inputs) (hc : s.clock = t.clock) : s.pins = t.pins := by
  unfold State.pins
  rw [hi, hc]

theorem pinsAt_congr {s t : State} (hi : s.inputs = t.inputs) (hc : s.clock = t.clock) (n : Nat) :
    s.pinsAt n = t.pinsAt n :=
  pins_congr (by simp [hi]) (by simp [hc])

theorem dropTicks_add (m n : Nat) (rs : List Run) : dropTicks (m + n) rs = dropTicks n (dropTicks m rs) := by
  induction m generalizing rs with
  | zero => simp [dropTicks]
  | succ m ih => rw [Nat.succ_add]; exact ih (dropTick rs)

@[simp] theorem dropTicks_zero (rs : List Run) : dropTicks 0 rs = rs := rfl

theorem dropTicks_one (rs : List Run) : dropTicks 1 rs = dropTick rs := rfl

@[simp] theorem advanceBy_zero (s : State) : advanceBy 0 s = s := rfl

theorem advanceBy_one (s : State) : advanceBy 1 s = advancePins s := rfl

theorem advanceBy_advanceBy (m n : Nat) (s : State) : advanceBy n (advanceBy m s) = advanceBy (m + n) s := by
  simp only [advanceBy, dropTicks_add, Nat.add_assoc]

theorem advanceBy_advancePins (n : Nat) (s : State) : advanceBy n (advancePins s) = advanceBy (n + 1) s := by
  rw [← advanceBy_one, advanceBy_advanceBy, Nat.add_comm]

theorem pinsAt_zero (s : State) : s.pinsAt 0 = s.pins := rfl

/-- The trace seen from `n` ticks on is the same trace, shifted. -/
theorem pinsAt_advanceBy (m n : Nat) (s : State) : (advanceBy m s).pinsAt n = s.pinsAt (m + n) := by
  unfold State.pinsAt
  rw [advanceBy_advanceBy]

theorem pinsAt_advancePins (n : Nat) (s : State) : (advancePins s).pinsAt n = s.pinsAt (n + 1) := by
  rw [← advanceBy_one, pinsAt_advanceBy, Nat.add_comm]

/-- A state whose trace is that of `s` after `m` ticks sees the pins of `s` shifted by `m`. -/
theorem pinsAt_of_trace {s t : State} {m : Nat} (hi : t.inputs = dropTicks m s.inputs) (hc : t.clock = s.clock + m)
    (n : Nat) : t.pinsAt n = s.pinsAt (m + n) := by
  rw [← pinsAt_advanceBy]
  exact pinsAt_congr (by simp [hi]) (by simp [hc]) n

/-- Dropping the ticks of the first run leaves the rest. -/
theorem dropTicks_levelRun (l : Level) (n : Nat) (rest : List Run) : dropTicks n (levelRun l n ++ rest) = rest := by
  cases n with
  | zero => rfl
  | succ n =>
    show dropTicks (n + 1) (⟨false, l, some n⟩ :: rest) = rest
    induction n with
    | zero => rfl
    | succ n ih => exact ih

/-- Before the first run is over its remainder heads the list. -/
theorem dropTicks_within (l : Level) (j k : Nat) (rest : List Run) :
    dropTicks j (⟨false, l, some (j + k)⟩ :: rest) = ⟨false, l, some k⟩ :: rest := by
  induction j with
  | zero => simp
  | succ j ih =>
    have h : dropTick (⟨false, l, some (j + 1 + k)⟩ :: rest) = ⟨false, l, some (j + k)⟩ :: rest := by
      rw [show j + 1 + k = j + k + 1 by omega]; rfl
    show dropTicks j (dropTick _) = _
    rw [h, ih]

theorem pinsAt_levelRun {s : State} {l : Level} {n : Nat} {rest : List Run} (h : s.inputs = levelRun l n ++ rest) {j : Nat}
    (hj : j < n) : s.pinsAt j = ⟨false, l⟩ := by
  obtain ⟨k, rfl⟩ := Nat.exists_eq_add_of_lt hj
  have h' : s.inputs = ⟨false, l, some (j + k)⟩ :: rest := h
  simp [State.pinsAt, State.pins, h', dropTicks_within]

/-- A listed train is carried as written. -/
theorem carries_trainRuns (tr : Train) (rest : List Run) (s : State) (h : s.inputs = trainRuns tr ++ rest) :
    carries s tr := by
  induction tr generalizing s with
  | nil => trivial
  | cons run tr ih =>
    obtain ⟨l, n⟩ := run
    have h' : s.inputs = levelRun l n ++ (trainRuns tr ++ rest) := by
      rw [h, trainRuns, List.append_assoc]
    refine ⟨fun j hj => pinsAt_levelRun h' hj, ih _ ?_⟩
    simp [h', dropTicks_levelRun]

/-- A train carried in two parts. -/
theorem carries_append (a b : Train) (s : State) :
    carries s (a ++ b) ↔ carries s a ∧ carries (advanceBy (a.map Prod.snd).sum s) b := by
  induction a generalizing s with
  | nil => simp [carries]
  | cons run a ih =>
    obtain ⟨l, n⟩ := run
    simp [carries, ih, advanceBy_advanceBy, and_assoc]

theorem dropTicks_forever (r : Run) (h : r.more = none) (rs : List Run) (n : Nat) : dropTicks n (r :: rs) = r :: rs := by
  induction n with
  | zero => rfl
  | succ n ih =>
    show dropTicks n (dropTick (r :: rs)) = r :: rs
    rw [show dropTick (r :: rs) = r :: rs by simp [dropTick, h], ih]

theorem pinsAt_forever {s : State} {l : Level} (h : s.inputs = levelForever l) (n : Nat) : s.pinsAt n = ⟨false, l⟩ := by
  have h' : s.inputs = [⟨false, l, none⟩] := h
  simp [State.pinsAt, State.pins, h', dropTicks_forever]

end Sys2Proof.Machine
end

