-- ==== Sys2Proof/Laws/Ops.lean ====
section
/-! SUPPORT. What each shared operation can do, said once: the start of the next attempt, the abort, and the dispatch. -/

namespace Sys2Proof.Machine

/-! The start of the next attempt writes `phase`, `e` and `gap` only. -/

theorem startAttempt_zero (s : State) : startAttempt 0 s = { s with phase := .wEdge, e := 0#18, gap := 0#10 } := rfl

theorem startAttempt_pause {g : Nat} (h : g ≠ 0) (s : State) :
    startAttempt g s = { s with phase := .gap, e := 0#18, gap := BitVec.ofNat 10 g } := if_neg h

@[simp] theorem startAttempt_e (g : Nat) (s : State) : (startAttempt g s).e = 0#18 := by
  unfold startAttempt; split <;> rfl
@[simp] theorem startAttempt_bitIdx (g : Nat) (s : State) : (startAttempt g s).bitIdx = s.bitIdx := by
  unfold startAttempt; split <;> rfl
@[simp] theorem startAttempt_frame (g : Nat) (s : State) : (startAttempt g s).frame = s.frame := by
  unfold startAttempt; split <;> rfl
@[simp] theorem startAttempt_speed (g : Nat) (s : State) : (startAttempt g s).speed = s.speed := by
  unfold startAttempt; split <;> rfl
@[simp] theorem startAttempt_idle (g : Nat) (s : State) : (startAttempt g s).idle = s.idle := by
  unfold startAttempt; split <;> rfl
@[simp] theorem startAttempt_dec (g : Nat) (s : State) : (startAttempt g s).dec = s.dec := by
  unfold startAttempt; split <;> rfl
@[simp] theorem startAttempt_act (g : Nat) (s : State) : (startAttempt g s).act = s.act := by
  unfold startAttempt; split <;> rfl
@[simp] theorem startAttempt_note (g : Nat) (s : State) : (startAttempt g s).note = s.note := by
  unfold startAttempt; split <;> rfl
@[simp] theorem startAttempt_cause (g : Nat) (s : State) : (startAttempt g s).cause = s.cause := by
  unfold startAttempt; split <;> rfl
@[simp] theorem startAttempt_inputs (g : Nat) (s : State) : (startAttempt g s).inputs = s.inputs := by
  unfold startAttempt; split <;> rfl
@[simp] theorem startAttempt_clock (g : Nat) (s : State) : (startAttempt g s).clock = s.clock := by
  unfold startAttempt; split <;> rfl

/-- The next attempt's start does not read what it overwrites. -/
theorem startAttempt_overwrites (g : Nat) (s : State) (p : Phase) (v : BitVec 18) (w : BitVec 10) :
    startAttempt g { s with phase := p, e := v, gap := w } = startAttempt g s := by
  unfold startAttempt; split <;> rfl

/-! The abort writes `idle`, `phase`, `e`, `gap` and the outputs only. -/

@[simp] theorem abortAttempt_speed (c : Cause) (s : State) : (abortAttempt c s).speed = s.speed := by
  unfold abortAttempt countFailure; split <;> simp
@[simp] theorem abortAttempt_frame (c : Cause) (s : State) : (abortAttempt c s).frame = s.frame := by
  unfold abortAttempt countFailure; split <;> simp
@[simp] theorem abortAttempt_bitIdx (c : Cause) (s : State) : (abortAttempt c s).bitIdx = s.bitIdx := by
  unfold abortAttempt countFailure; split <;> simp
@[simp] theorem abortAttempt_dec (c : Cause) (s : State) : (abortAttempt c s).dec = some .fail := by
  unfold abortAttempt countFailure; split <;> simp
@[simp] theorem abortAttempt_note (c : Cause) (s : State) : (abortAttempt c s).note = s.note := by
  unfold abortAttempt countFailure; split <;> simp
@[simp] theorem abortAttempt_cause (c : Cause) (s : State) : (abortAttempt c s).cause = some c := by
  unfold abortAttempt countFailure; split <;> simp
@[simp] theorem abortAttempt_inputs (c : Cause) (s : State) : (abortAttempt c s).inputs = s.inputs := by
  unfold abortAttempt countFailure; split <;> simp
@[simp] theorem abortAttempt_clock (c : Cause) (s : State) : (abortAttempt c s).clock = s.clock := by
  unfold abortAttempt countFailure; split <;> simp

/-! Nothing at the end of a wait reads the elapsed counter of the state: the stage is given the result of the wait. -/

@[simp] theorem enterWait_setE (p : Phase) (v : BitVec 18) (s : State) : enterWait p (setE v s) = enterWait p s := rfl

@[simp] theorem startAttempt_setE (g : Nat) (v : BitVec 18) (s : State) : startAttempt g (setE v s) = startAttempt g s := by
  unfold startAttempt; split <;> rfl

@[simp] theorem abortAttempt_setE (c : Cause) (v : BitVec 18) (s : State) :
    abortAttempt c (setE v s) = abortAttempt c s := by
  simp only [abortAttempt, countFailure, emitDecFail, setIdle, emitAct, startAttempt, setE]

theorem setFrame_setE (f : FrameWord) (v : BitVec 18) (s : State) : setFrame f (setE v s) = setE v (setFrame f s) := rfl

theorem setBitIdx_setE (i : BitVec 5) (v : BitVec 18) (s : State) : setBitIdx i (setE v s) = setE v (setBitIdx i s) := rfl

/-- What a dispatch can do: it answers a next state that differs in `speed`, `act` and `note` only, with a notification of
the code. -/
theorem exec_answers (i : Instr) (s : State) :
    ∃ v a n, exec i s = .next { s with speed := v, act := a, note := some n } ∧ n.code = encode i := by
  cases i with
  | forward => exact ⟨s.speed, some ⟨.forward, currentDuty s⟩, ⟨.forward, Config.codeForward⟩, rfl, rfl⟩
  | left => exact ⟨s.speed, some ⟨.left, turnDuty⟩, ⟨.left, Config.codeLeft⟩, rfl, rfl⟩
  | stop => exact ⟨s.speed, some ⟨.stop, stopDuty⟩, ⟨.stop, Config.codeStop⟩, rfl, rfl⟩
  | right => exact ⟨s.speed, some ⟨.right, turnDuty⟩, ⟨.right, Config.codeRight⟩, rfl, rfl⟩
  | backward => exact ⟨s.speed, some ⟨.backward, currentDuty s⟩, ⟨.backward, Config.codeBackward⟩, rfl, rfl⟩
  | resetSpeed =>
    exact ⟨BitVec.ofNat 16 Config.profile.speedReset, s.act, ⟨.resetSpeed, Config.codeResetSpeed⟩,
      by simp only [exec, execResetSpeed, emitNote, setSpeed], rfl⟩
  | incSpeed => exact ⟨increasedSpeed s.speed, s.act, ⟨.incSpeed, Config.codeIncSpeed⟩,
      by simp only [exec, execIncSpeed, emitNote, setSpeed], rfl⟩
  | decSpeed => exact ⟨decreasedSpeed s.speed, s.act, ⟨.decSpeed, Config.codeDecSpeed⟩,
      by simp only [exec, execDecSpeed, emitNote, setSpeed], rfl⟩
  | unknown c => exact ⟨s.speed, s.act, ⟨.unknown, c⟩, rfl, rfl⟩

/-- A dispatch neither reads nor writes the elapsed counter. -/
theorem exec_setE (i : Instr) (v : BitVec 18) (s : State) :
    ∃ t, exec i s = .next t ∧ exec i (setE v s) = .next (setE v t) := by
  cases i with
  | incSpeed =>
    exact ⟨_, rfl, by simp only [exec, execIncSpeed, emitNote, setSpeed, setE]⟩
  | decSpeed =>
    exact ⟨_, rfl, by simp only [exec, execDecSpeed, emitNote, setSpeed, setE]⟩
  | resetSpeed => exact ⟨_, rfl, by simp only [exec, execResetSpeed, emitNote, setSpeed, setE]⟩
  | _ => exact ⟨_, rfl, rfl⟩

end Sys2Proof.Machine
end

