-- ==== Sys2Proof/Laws/PerInstr.lean ====
section
/-! SUPPORT. Facts about every instruction as syntax, one lemma per constructor (LAWS.json). Family `CodeRoundTrip`: the
code of a well-formed instruction decodes to it. -/

namespace Sys2Proof.Laws

/-- Decoding the CMD8 code of a well-formed instruction gives the instruction back (spec/30_encoding.md rule R44). -/
def CodeRoundTrip.Statement (i : Instr) : Prop :=
  i.wellFormed = true → decodeCommand (encode i) = i

theorem CodeRoundTrip.forward : CodeRoundTrip.Statement .forward := fun _ => by decide
theorem CodeRoundTrip.left : CodeRoundTrip.Statement .left := fun _ => by decide
theorem CodeRoundTrip.stop : CodeRoundTrip.Statement .stop := fun _ => by decide
theorem CodeRoundTrip.right : CodeRoundTrip.Statement .right := fun _ => by decide
theorem CodeRoundTrip.backward : CodeRoundTrip.Statement .backward := fun _ => by decide
theorem CodeRoundTrip.resetSpeed : CodeRoundTrip.Statement .resetSpeed := fun _ => by decide
theorem CodeRoundTrip.incSpeed : CodeRoundTrip.Statement .incSpeed := fun _ => by decide
theorem CodeRoundTrip.decSpeed : CodeRoundTrip.Statement .decSpeed := fun _ => by decide
theorem CodeRoundTrip.unknown (code : Byte) : CodeRoundTrip.Statement (.unknown code) := fun h =>
  decodeCommand_unlisted (c := code) (by simpa [Instr.wellFormed] using h)

end Sys2Proof.Laws
end

