-- ==== Sys2Proof/Laws/Reference.lean ====
section
/-! SUPPORT. What a dispatch does, in the words of the functional forms. -/

namespace Sys2Proof.Machine

/-- A dispatch whose `act` field is still clear, as in every tick, shows the events of its row and writes its speed. -/
theorem exec_eq_reference (i : Instr) (s : State) (h : s.act = none) :
    exec i s = .next { s with
      speed := speedAfter i s.speed, act := actuationOf i s.speed, note := some ⟨notedAction i, encode i⟩ } := by
  cases i
  case resetSpeed => simp only [exec, execResetSpeed, emitNote, setSpeed, actuationOf, ← h]; rfl
  case incSpeed => simp only [exec, execIncSpeed, emitNote, setSpeed, actuationOf, ← h]; rfl
  case decSpeed => simp only [exec, execDecSpeed, emitNote, setSpeed, actuationOf, ← h]; rfl
  case unknown c => simp only [exec, execUnknown, emitNote, actuationOf, ← h]; rfl
  all_goals rfl

end Sys2Proof.Machine
end

