-- ==== Sys2Proof/Laws/Step.lean ====
section
/-! SUPPORT. What one tick can do, said once: reset, a tick of GAP, or a tick of a wait, which goes on, succeeds or times
out. -/

namespace Sys2Proof.Machine

theorem step_of_reset {s : State} (h : s.pins.rst = true) : step s = .next (resetRegisters (advancePins s)) := by
  simp [step, tick, h]

theorem step_of_no_reset {s : State} (h : s.pins.rst = false) :
    step s = sequencerTick s.pins.ir (clearOutputs (advancePins s)) := by
  simp [step, tick, h]

/-- A tick of GAP does not read the line. -/
theorem sequencerTick_gap {s : State} (hp : s.phase = .gap) (x : Level) : sequencerTick x s = gapTick s := by
  simp [sequencerTick, hp, waitOf]

theorem levelWaitTick_seen {w : Wait} {e : Nat} (h : e ≤ w.timeout) : levelWaitTick w e w.target = .seen e := by
  simp [levelWaitTick, h]

theorem levelWaitTick_waiting {w : Wait} {e : Nat} {x : Level} (h : e ≤ w.timeout) (hx : x ≠ w.target) :
    levelWaitTick w e x = .waiting := by
  have he : e ≠ w.timeout + 1 := by omega
  simp [levelWaitTick, hx, he]

theorem levelWaitTick_timedOut {w : Wait} {e : Nat} (h : e = w.timeout + 1) (x : Level) :
    levelWaitTick w e x = .timedOut := by
  have he : ¬ e ≤ w.timeout := by omega
  simp [levelWaitTick, h]

/-- The three outcomes of a tick of a wait, inverted. -/
theorem levelWaitTick_cases (w : Wait) (e : Nat) (x : Level) :
    (levelWaitTick w e x = .seen e ∧ e ≤ w.timeout ∧ x = w.target) ∨
    (levelWaitTick w e x = .timedOut ∧ e = w.timeout + 1) ∨
    (levelWaitTick w e x = .waiting ∧ e ≠ w.timeout + 1 ∧ (e ≤ w.timeout → x ≠ w.target)) := by
  unfold levelWaitTick
  split
  · exact .inl ⟨rfl, ‹_›⟩
  · rename_i h
    split
    · exact .inr (.inl ⟨rfl, ‹_›⟩)
    · exact .inr (.inr ⟨rfl, ‹_›, fun he hx => h ⟨he, hx⟩⟩)

/-- Every wait's counter fits its register with room to spare (R6(e)). -/
theorem timeout_lt {p : Phase} {w : Wait} (h : waitOf p = some w) : w.timeout + 1 < 2 ^ 18 := by
  cases p <;> simp [waitOf] at h <;> subst h <;> simp

theorem stayWaiting_next {s : State} (h : s.e.toNat + 1 < 2 ^ 18) :
    stayWaiting s = .next (setE (BitVec.ofNat 18 (s.e.toNat + 1)) s) := by
  unfold stayWaiting
  rw [if_pos (by simpa using h)]

/-- The end of a successful attempt always answers: the dispatch, then the start of the next attempt. -/
theorem finishAttempt_answers (f : FrameWord) (i : Instr) (s : State) :
    ∃ v a n, exec i (setIdle 0 (emitDecOk (commandByte f) s)) =
        .next { setIdle 0 (emitDecOk (commandByte f) s) with speed := v, act := a, note := some n } ∧
      n.code = encode i ∧
      finishAttempt f i s = .next { s with
        phase := .wEdge, e := 0#18, gap := 0#10, idle := 0#10, speed := v, dec := some (.ok (commandByte f)), act := a,
        note := some n } := by
  obtain ⟨v, a, n, h, hn⟩ := exec_answers i (setIdle 0 (emitDecOk (commandByte f) s))
  refine ⟨v, a, n, h, hn, ?_⟩
  simp only [finishAttempt, h, startAttempt_zero]
  rfl

@[simp] theorem finishAttempt_setE (f : FrameWord) (i : Instr) (v : BitVec 18) (s : State) :
    finishAttempt f i (setE v s) = finishAttempt f i s := by
  obtain ⟨t, h, h'⟩ := exec_setE i v (setIdle 0 (emitDecOk (commandByte f) s))
  have h'' : exec i (setIdle 0 (emitDecOk (commandByte f) (setE v s))) = .next (setE v t) := h'
  simp [finishAttempt, h, h'']

@[simp] theorem checksumStage_setE (f : FrameWord) (v : BitVec 18) (s : State) :
    checksumStage f (setE v s) = checksumStage f s := by
  simp only [checksumStage, abortAttempt_setE, finishAttempt_setE]

/-- No stage reads the elapsed counter of the state. -/
theorem resolveWait_setE {s : State} {w : Wait} (hw : waitOf s.phase = some w) (d : Option Nat) (v : BitVec 18) :
    resolveWait d (setE v s) = resolveWait d s := by
  cases hp : s.phase with
  | gap => simp [hp, waitOf] at hw
  | wEdge => cases d <;> simp [resolveWait, hp, edgeStage]
  | wLead => cases d <;> simp [resolveWait, hp, leadStage]
  | wSpace => cases d <;> simp [resolveWait, hp, spaceStage]
  | wBitLow => cases d <;> simp [resolveWait, hp, bitLowStage]
  | wBitHigh =>
    cases d with
    | none => simp [resolveWait, hp, bitHighStage]
    | some n =>
      simp only [resolveWait, setE_phase, hp, bitHighStage, frameWithBit, setE_frame, setE_bitIdx, setFrame_setE,
        setBitIdx_setE, enterWait_setE, abortAttempt_setE, checksumStage_setE]

/-- The resolve tick of a wait that succeeds. -/
theorem step_seen {s : State} {w : Wait} (hw : waitOf s.phase = some w) (he : s.e.toNat ≤ w.timeout)
    (hx : s.pins = ⟨false, w.target⟩) :
    step s = resolveWait (some s.e.toNat) (clearOutputs (advancePins s)) := by
  rw [step_of_no_reset (by simp [hx])]
  simp [sequencerTick, hw, hx, levelWaitTick_seen he]

/-- The resolve tick of a wait that fails; the line is not examined. -/
theorem step_timedOut {s : State} {w : Wait} (hw : waitOf s.phase = some w) (he : s.e.toNat = w.timeout + 1)
    (hx : s.pins.rst = false) :
    step s = resolveWait none (clearOutputs (advancePins s)) := by
  rw [step_of_no_reset hx]
  simp only [sequencerTick, clearOutputs_phase, advancePins_phase, hw, clearOutputs_e, advancePins_e,
    levelWaitTick_timedOut he]

/-- A tick at which a wait goes on. -/
theorem step_waits {s : State} {w : Wait} (hw : waitOf s.phase = some w) (he : s.e.toNat ≤ w.timeout)
    (hr : s.pins.rst = false) (hx : s.pins.ir ≠ w.target) :
    step s = .next (setE (BitVec.ofNat 18 (s.e.toNat + 1)) (clearOutputs (advancePins s))) := by
  rw [step_of_no_reset hr]
  have := timeout_lt hw
  simp only [sequencerTick, clearOutputs_phase, advancePins_phase, hw, clearOutputs_e, advancePins_e,
    levelWaitTick_waiting he hx]
  exact stayWaiting_next (by simp; omega)

/-- What a tick that answers a next state did. -/
theorem step_cases {s t : State} (h : step s = .next t) :
    (s.pins.rst = true ∧ t = resetRegisters (advancePins s)) ∨
    (s.pins.rst = false ∧ s.phase = .gap ∧ gapTick (clearOutputs (advancePins s)) = .next t) ∨
    (∃ w, waitOf s.phase = some w ∧ s.pins.rst = false ∧
      ((s.e.toNat ≠ w.timeout + 1 ∧ (s.e.toNat ≤ w.timeout → s.pins.ir ≠ w.target) ∧ s.e.toNat + 1 < 2 ^ 18 ∧
          t = setE (BitVec.ofNat 18 (s.e.toNat + 1)) (clearOutputs (advancePins s))) ∨
        (s.e.toNat ≤ w.timeout ∧ s.pins.ir = w.target ∧
          resolveWait (some s.e.toNat) (clearOutputs (advancePins s)) = .next t) ∨
        (s.e.toNat = w.timeout + 1 ∧ resolveWait none (clearOutputs (advancePins s)) = .next t))) := by
  cases hr : s.pins.rst with
  | true =>
    rw [step_of_reset hr] at h
    exact .inl ⟨rfl, by injection h with h; exact h.symm⟩
  | false =>
    rw [step_of_no_reset hr] at h
    refine .inr ?_
    cases hw : waitOf s.phase with
    | none =>
      have hp : s.phase = .gap := by
        revert hw; cases s.phase <;> simp [waitOf]
      rw [sequencerTick_gap (by simp [hp])] at h
      exact .inl ⟨rfl, hp, h⟩
    | some w =>
      refine .inr ⟨w, rfl, rfl, ?_⟩
      simp only [sequencerTick, clearOutputs_phase, advancePins_phase, hw, clearOutputs_e, advancePins_e] at h
      rcases levelWaitTick_cases w s.e.toNat s.pins.ir with ⟨ho, he, hx⟩ | ⟨ho, he⟩ | ⟨ho, hne, hx⟩
      · rw [ho] at h; exact .inr (.inl ⟨he, hx, h⟩)
      · rw [ho] at h; exact .inr (.inr ⟨he, h⟩)
      · rw [ho] at h
        refine .inl ⟨hne, hx, ?_⟩
        simp only [stayWaiting] at h
        split at h
        · rename_i hlt
          injection h with h
          exact ⟨by simpa using hlt, h.symm⟩
        · cases h

/-- What the resolve tick of a wait can do, whatever the stage: it enters the next wait, aborts, or ends the attempt with a
frame that decodes; and it always answers. -/
theorem resolveWait_answers {s : State} {w : Wait} (hw : waitOf s.phase = some w) (d : Option Nat) :
    (∃ p b f, p ≠ .gap ∧ p ≠ .wEdge ∧ resolveWait d s = .next (enterWait p (setBitIdx b (setFrame f s)))) ∨
    (∃ c f, resolveWait d s = .next (abortAttempt c (setFrame f s))) ∨
    (∃ f i, decodeFrame f = .ok i ∧ resolveWait d s = finishAttempt f i (setFrame f s)) := by
  have pass : ∀ p, enterWait p s = enterWait p (setBitIdx s.bitIdx (setFrame s.frame s)) := fun _ => rfl
  have keep : ∀ c, abortAttempt c s = abortAttempt c (setFrame s.frame s) := fun _ => rfl
  cases hp : s.phase with
  | gap => simp [hp, waitOf] at hw
  | wEdge =>
    simp only [resolveWait, hp]
    cases d with
    | none => exact .inr (.inl ⟨_, _, congrArg _ (keep _)⟩)
    | some n => exact .inl ⟨_, _, _, by simp, by simp, congrArg _ (pass _)⟩
  | wLead =>
    simp only [resolveWait, hp]
    cases d with
    | none => exact .inr (.inl ⟨_, _, congrArg _ (keep _)⟩)
    | some n =>
      simp only [leadStage]
      split
      · exact .inl ⟨_, _, _, by simp, by simp, congrArg _ (pass _)⟩
      · exact .inr (.inl ⟨_, _, congrArg _ (keep _)⟩)
  | wSpace =>
    simp only [resolveWait, hp]
    cases d with
    | none => exact .inr (.inl ⟨_, _, congrArg _ (keep _)⟩)
    | some n =>
      simp only [spaceStage]
      split
      · exact .inl ⟨.wBitLow, 0#5, s.frame, by simp, by simp, rfl⟩
      · exact .inr (.inl ⟨_, _, congrArg _ (keep _)⟩)
  | wBitLow =>
    simp only [resolveWait, hp]
    cases d with
    | none => exact .inr (.inl ⟨_, _, congrArg _ (keep _)⟩)
    | some n => exact .inl ⟨_, _, _, by simp, by simp, congrArg _ (pass _)⟩
  | wBitHigh =>
    simp only [resolveWait, hp]
    cases d with
    | none => exact .inr (.inl ⟨_, _, congrArg Host.Outcome.next (keep (.bitHighTimeout s.bitIdx))⟩)
    | some n =>
      simp only [bitHighStage]
      split
      · exact .inr (.inl ⟨_, _, congrArg Host.Outcome.next (keep (.bitShort s.bitIdx))⟩)
      · split
        · exact .inl ⟨.wBitLow, s.bitIdx + 1#5, frameWithBit n s, by simp, by simp, rfl⟩
        · simp only [checksumStage]
          split
          · exact .inr (.inl ⟨_, _, rfl⟩)
          · exact .inr (.inl ⟨_, _, rfl⟩)
          · rename_i i hi
            exact .inr (.inr ⟨_, i, hi, rfl⟩)

end Sys2Proof.Machine
end

