-- ==== Sys2Proof/Laws/Run.lean ====
section
/-! SUPPORT. Runs of several ticks: how they compose, and the whole of a wait at once, which is what a level trace of runs
looks like to the machine (spec/40_level_wait.md rules R56, R57 and R59). -/

namespace Sys2Proof.Machine

theorem runsTo_zero (s : State) : RunsTo 0 s s := rfl

theorem runsTo_succ {n : Nat} {s t u : State} (h : step s = .next t) (hr : RunsTo n t u) : RunsTo (n + 1) s u := by
  unfold RunsTo ticks
  rw [h]
  exact hr

theorem runsTo_one {s t : State} (h : step s = .next t) : RunsTo 1 s t :=
  runsTo_succ h (runsTo_zero t)

theorem runsTo_succ_inv {n : Nat} {s u : State} (h : RunsTo (n + 1) s u) : ∃ t, step s = .next t ∧ RunsTo n t u := by
  unfold RunsTo ticks at h
  cases hs : step s with
  | next t => rw [hs] at h; exact ⟨t, rfl, h⟩
  | fault r => rw [hs] at h; cases h
  | refused r => rw [hs] at h; cases h

theorem runsTo_add {m n : Nat} {s t u : State} (h : RunsTo m s t) (h' : RunsTo n t u) : RunsTo (m + n) s u := by
  induction m generalizing s with
  | zero =>
    have : s = t := by injection h
    simpa [this] using h'
  | succ m ih =>
    obtain ⟨r, hs, hr⟩ := runsTo_succ_inv h
    rw [Nat.succ_add]
    exact runsTo_succ hs (ih hr)

theorem runsTo_last {n : Nat} {s t u : State} (h : RunsTo n s t) (hs : step t = .next u) : RunsTo (n + 1) s u :=
  runsTo_add h (runsTo_one hs)

/-- A run of given length ends in one state. -/
theorem runsTo_unique {n : Nat} {s t u : State} (h : RunsTo n s t) (h' : RunsTo n s u) : t = u := by
  have := h.symm.trans h'
  injection this

/-- What is kept by every tick is kept by every run. -/
theorem runsTo_keeps {P : State → Prop} (hP : ∀ s t, P s → step s = .next t → P t) {n : Nat} {s t : State} (hs : P s)
    (h : RunsTo n s t) : P t := by
  induction n generalizing s with
  | zero => have : s = t := by injection h
            exact this ▸ hs
  | succ n ih =>
    obtain ⟨r, hstep, hr⟩ := runsTo_succ_inv h
    exact ih (hP s r hs hstep) hr

/-- The state inside a wait after `k` ticks that did not resolve it. -/
def waited (k : Nat) (s : State) : State :=
  if k = 0 then s else setE (BitVec.ofNat 18 (s.e.toNat + k)) (clearOutputs (advanceBy k s))

@[simp] theorem waited_zero (s : State) : waited 0 s = s := rfl

theorem waited_pos {k : Nat} (h : 0 < k) (s : State) :
    waited k s = setE (BitVec.ofNat 18 (s.e.toNat + k)) (clearOutputs (advanceBy k s)) :=
  if_neg (by omega)

@[simp] theorem waited_phase (k : Nat) (s : State) : (waited k s).phase = s.phase := by
  unfold waited; split <;> rfl

theorem waited_e {k : Nat} {s : State} (h : s.e.toNat + k < 2 ^ 18) : (waited k s).e.toNat = s.e.toNat + k := by
  unfold waited
  split
  · simp [*]
  · simp; omega

theorem waited_pinsAt (k n : Nat) (s : State) : (waited k s).pinsAt n = s.pinsAt (k + n) := by
  unfold waited
  split
  · rename_i h; simp [h]
  · exact pinsAt_of_trace rfl rfl n

theorem clear_waited (k : Nat) (s : State) :
    ∃ v, clearOutputs (advancePins (waited k s)) = setE v (clearOutputs (advanceBy (k + 1) s)) := by
  unfold waited
  split
  · rename_i h; subst h; exact ⟨s.e, rfl⟩
  · refine ⟨BitVec.ofNat 18 (s.e.toNat + k), ?_⟩
    simp only [clearOutputs, advancePins, setE, advanceBy, dropTicks_add, dropTicks_one, Nat.add_assoc]

/-- A wait goes on for `k` ticks while the target level is not sampled and the timeout is not passed. -/
theorem runsTo_waited {s : State} {w : Wait} (hw : waitOf s.phase = some w) {k : Nat}
    (he : s.e.toNat + k ≤ w.timeout + 1) (hl : ∀ j < k, (s.pinsAt j).rst = false ∧ (s.pinsAt j).ir ≠ w.target) :
    RunsTo k s (waited k s) := by
  have ht := timeout_lt hw
  induction k with
  | zero => exact runsTo_zero s
  | succ k ih =>
    have hr := ih (by omega) fun j hj => hl j (by omega)
    have hek : (waited k s).e.toNat = s.e.toNat + k := waited_e (by omega)
    obtain ⟨h1, h2⟩ := hl k (by omega)
    have hpins : (waited k s).pins = s.pinsAt k := waited_pinsAt k 0 s
    refine runsTo_last hr ?_
    rw [step_waits (w := w) (by simpa using hw) (by omega) (by rw [hpins]; exact h1) (by rw [hpins]; exact h2)]
    obtain ⟨v, hv⟩ := clear_waited k s
    rw [hv, hek, waited_pos (by omega)]
    rfl

/-- A wait whose target level is first sampled after `k` more ticks resolves there with its elapsed count (R56). -/
theorem wait_resolves_seen {s : State} {w : Wait} (hw : waitOf s.phase = some w) {k : Nat}
    (he : s.e.toNat + k ≤ w.timeout) (hl : ∀ j < k, (s.pinsAt j).rst = false ∧ (s.pinsAt j).ir ≠ w.target)
    (hk : s.pinsAt k = ⟨false, w.target⟩) :
    RunsTo k s (waited k s) ∧
      step (waited k s) = resolveWait (some (s.e.toNat + k)) (clearOutputs (advanceBy (k + 1) s)) := by
  have ht := timeout_lt hw
  have hek : (waited k s).e.toNat = s.e.toNat + k := waited_e (by omega)
  have hpins : (waited k s).pins = s.pinsAt k := waited_pinsAt k 0 s
  refine ⟨runsTo_waited hw (by omega) hl, ?_⟩
  rw [step_seen (w := w) (by simpa using hw) (by omega) (hpins.trans hk), hek]
  obtain ⟨v, hv⟩ := clear_waited k s
  rw [hv]
  exact resolveWait_setE (w := w) (by simpa using hw) _ _

/-- A wait whose target level is not sampled up to the timeout fails one tick past it, whatever the line is there (R55). -/
theorem wait_resolves_timedOut {s : State} {w : Wait} (hw : waitOf s.phase = some w) {k : Nat}
    (he : s.e.toNat + k = w.timeout + 1) (hl : ∀ j < k, (s.pinsAt j).rst = false ∧ (s.pinsAt j).ir ≠ w.target)
    (hk : (s.pinsAt k).rst = false) :
    RunsTo k s (waited k s) ∧ step (waited k s) = resolveWait none (clearOutputs (advanceBy (k + 1) s)) := by
  have ht := timeout_lt hw
  have hek : (waited k s).e.toNat = s.e.toNat + k := waited_e (by omega)
  have hpins : (waited k s).pins = s.pinsAt k := waited_pinsAt k 0 s
  refine ⟨runsTo_waited hw (by omega) hl, ?_⟩
  rw [step_timedOut (w := w) (by simpa using hw) (by omega) (by rw [hpins]; exact hk)]
  obtain ⟨v, hv⟩ := clear_waited k s
  rw [hv]
  exact resolveWait_setE (w := w) (by simpa using hw) _ _

end Sys2Proof.Machine
end

