-- ==== Sys2Proof/Laws/Safety.lean ====
section
/-! SUPPORT. The parts of the invariant as plain inequalities. -/

namespace Sys2Proof.Machine

theorem inv_iff (s : State) :
    inv s = true ↔ countersInRange s = true ∧ idleInRange s = true ∧ outputsLegal s = true := by
  simp [inv, and_assoc]

theorem countersInRange_wait {s : State} {w : Wait} (hw : waitOf s.phase = some w) :
    countersInRange s = true ↔
      s.e.toNat ≤ w.timeout + 1 ∧ (s.phase = .wEdge ∨ 1 ≤ s.e.toNat) ∧ s.gap = 0#10 := by
  simp [countersInRange, hw, and_assoc]

theorem countersInRange_gap {s : State} (hp : s.phase = .gap) :
    countersInRange s = true ↔ s.e = 0#18 ∧ 1 ≤ s.gap.toNat ∧ s.gap.toNat ≤ 1000 := by
  simp [countersInRange, hp, waitOf]

theorem idleInRange_iff (s : State) : idleInRange s = true ↔ s.idle.toNat ≤ 800 := by
  simp [idleInRange]

/-- The ranges depend on the counters alone. -/
theorem idleInRange_congr {s t : State} (h : s.idle = t.idle) : idleInRange s = idleInRange t := by
  unfold idleInRange; rw [h]

/-- A tick with no event is legal. -/
theorem outputsLegal_quiet {s : State} (hd : s.dec = none) (ha : s.act = none) (hn : s.note = none)
    (hc : s.cause = none) : outputsLegal s = true := by
  simp [outputsLegal, hd, ha, hn, hc]

end Sys2Proof.Machine
end

