-- ==== Sys2Proof/Tests/Slice0.lean ====
section
/-! SUPPORT. Tests of the model, each on one word or one tick, with expected values from the spec (the vector or rule is
named), and one witness for every statement that has hypotheses: concrete operands that meet all of them. -/

namespace Sys2Proof.Tests

open Sys2Proof Sys2Proof.Machine

/-- The state after reset with this input trace placed at the next tick (spec/30_encoding.md rule R53). -/
def start (rs : List Run) : State :=
  { State.reset with inputs := rs }

/-- The reset state with an injected speed. -/
def withSpeed (v : Duty) : State :=
  { State.reset with speed := v }

/-- A state in the wait of this phase at elapsed `e`. -/
def inWait (p : Phase) (e : BitVec 18) (rs : List Run) : State :=
  { start rs with phase := p, e := e }

/-- Whether the outcome is a next state that meets the test. -/
def nextMeets (o : Host.Outcome State Fault Refusal) (p : State → Bool) : Bool :=
  match o with
  | .next t => p t
  | .fault _ => false
  | .refused _ => false

/-- Whether the dispatch of a code at an injected speed gives these events and this speed, the columns of V50 to V69:
`act` as (op, duty), `note` as (action, code). -/
def dispatches (c : Byte) (v : Duty) (act : Option (Nat × Nat)) (note : Nat × Nat) (after : Nat) : Bool :=
  nextMeets (step ((withSpeed v).withFetchWord 8 c.toNat)) fun t =>
    t.actValid == act.isSome && (t.actOp.toNat, t.actDuty.toNat) == act.getD (0, 0) && t.noteValid &&
      (t.noteAction.toNat, t.noteCode.toNat) == note && t.decValid && t.decOk && t.decCode == c && t.speed.toNat == after

/-! ## WellFormed: an ill-formed term for each check -/

theorem test_wf_unknown_with_listed_code : (Instr.unknown 0x18#8).wellFormed = false := by decide
theorem test_wf_unknown_code_zero : (Instr.unknown 0x00#8).wellFormed = true := by decide
theorem test_wf_profile : Config.profile.wellFormed = true := by decide
theorem test_wf_lead : { Config.profile with tLeadMin := 10001 }.leadOk = false := by decide
theorem test_wf_space : { Config.profile with tSpaceMax := 7001 }.spaceOk = false := by decide
theorem test_wf_bit : { Config.profile with tBitHighTo := 1200 }.bitOk = false := by decide
theorem test_wf_bitLow : { Config.profile with tBitLowTo := 0 }.bitLowOk = false := by decide
theorem test_wf_elapsed : { Config.profile with elapsedW := 17 }.elapsedOk = false := by decide
theorem test_wf_speed : { Config.profile with speedLimit := 65535 }.speedOk = false := by decide
theorem test_wf_idle : { Config.profile with idleLimit := 1023 }.idleOk = false := by decide
theorem test_wf_gap : { Config.profile with pauseUs := 1024 }.gapOk = false := by decide
theorem test_wf_bits : { Config.profile with nBits := 33 }.bitsOk = false := by decide

/-! ## Decode: words written out from R41 and R44, command byte and complement bit by bit -/

theorem test_decode_forward : decodeFrame 0b11100111000110001111111100000000#32 = .ok .forward := by decide
theorem test_decode_left : decodeFrame 0b11110111000010001111111100000000#32 = .ok .left := by decide
theorem test_decode_stop : decodeFrame 0b11100011000111001111111100000000#32 = .ok .stop := by decide
theorem test_decode_right : decodeFrame 0b10100101010110101111111100000000#32 = .ok .right := by decide
theorem test_decode_backward : decodeFrame 0b10101101010100101111111100000000#32 = .ok .backward := by decide
theorem test_decode_resetSpeed : decodeFrame 0b11110110000010011111111100000000#32 = .ok .resetSpeed := by decide
theorem test_decode_incSpeed : decodeFrame 0b11101010000101011111111100000000#32 = .ok .incSpeed := by decide
theorem test_decode_decSpeed : decodeFrame 0b11111000000001111111111100000000#32 = .ok .decSpeed := by decide
theorem test_decode_unknown : decodeFrame 0b10111010010001011111111100000000#32 = .ok (.unknown 0x45#8) := by decide

/-- Any address is accepted (R46), here 0xA5. -/
theorem test_decode_other_address : decode [0xA5#8, 0x5A#8, 0b00011000#8, 0b11100111#8] = .ok .forward := by decide

/-- V46 and V47: 0x01 + 0xFF is 0x100, and the address pair is tested first. -/
theorem test_decode_addr_check : decode [0x01#8, 0xFF#8, 0x18#8, 0xE6#8] = .error (.badFrame .addrCheck) := by decide

/-- X9: complement byte 0xE6. -/
theorem test_decode_cmd_check : decode [0x00#8, 0xFF#8, 0x18#8, 0xE6#8] = .error (.badFrame .cmdCheck) := by decide

theorem test_decode_wrong_length : decode [0x00#8, 0xFF#8, 0x18#8] = .error .wrongLength := by decide

theorem test_tableWord_forward : decodeTableWord 8 0b00011000 = some .forward := by decide
theorem test_tableWord_too_wide : decodeTableWord 9 0x18 = none := by decide

/-! ## One tick of each instruction: V50 to V68 -/

theorem test_forward_v50 : dispatches 0x18#8 0#16 (some (1, 0)) (0, 0x18) 0 = true := by decide
theorem test_forward_v51 : dispatches 0x18#8 65535#16 (some (1, 65535)) (0, 0x18) 65535 = true := by decide
theorem test_left_v52 : dispatches 0x08#8 0#16 (some (3, 13107)) (1, 0x08) 0 = true := by decide
theorem test_stop_v53 : dispatches 0x1C#8 39321#16 (some (0, 0)) (2, 0x1C) 39321 = true := by decide
theorem test_right_v54 : dispatches 0x5A#8 65533#16 (some (4, 13107)) (3, 0x5A) 65533 = true := by decide
theorem test_incSpeed_v56 : dispatches 0x15#8 58982#16 none (6, 0x15) 65535 = true := by decide
theorem test_incSpeed_v57 : dispatches 0x15#8 58983#16 none (6, 0x15) 58983 = true := by decide
theorem test_decSpeed_v59 : dispatches 0x07#8 6554#16 none (7, 0x07) 1 = true := by decide
theorem test_decSpeed_v61 : dispatches 0x07#8 6553#16 none (7, 0x07) 6553 = true := by decide
theorem test_backward_v63 : dispatches 0x52#8 3#16 (some (2, 3)) (4, 0x52) 3 = true := by decide
theorem test_resetSpeed_v64 : dispatches 0x09#8 65535#16 none (5, 0x09) 32768 = true := by decide
theorem test_unknown_v68 : dispatches 0x45#8 12345#16 none (8, 0x45) 12345 = true := by decide
theorem test_unknown_v69 : dispatches 0x00#8 1#16 none (8, 0x00) 1 = true := by decide

/-! ## One tick of a wait, of the pause, of an abort, of reset -/

/-- V5 and V24: 12000 is still a success of the wait, and outside the window. -/
theorem test_lead_12000 : nextMeets (step (inWait .wLead 12000#18 (levelForever .high))) fun t =>
    t.cause == some .leadWindow && t.idle == 1#10 && t.gap == 1000#10 := by decide

/-- V6: one past the timeout the line is not examined. -/
theorem test_lead_12001 : nextMeets (step (inWait .wLead 12001#18 (levelForever .high))) fun t =>
    t.cause == some .leadTimeout := by decide

/-- V10: 4500 ticks of space. -/
theorem test_space_4500 : nextMeets (step (inWait .wSpace 4500#18 (levelForever .low))) fun t =>
    t.phase == .wBitLow && t.e == 1#18 && t.bitIdx == 0#5 && !t.decValid := by decide

/-- V35: a high part of 199 is too short, and the label names its bit. -/
theorem test_bit_short : nextMeets (step { inWait .wBitHigh 199#18 (levelForever .low) with bitIdx := 8#5 }) fun t =>
    t.cause == some (.bitShort 8#5) && t.frame == 0#32 := by decide

/-- V38: 1201 is a 1, written at bit 8 alone. -/
theorem test_bit_one : nextMeets (step { inWait .wBitHigh 1201#18 (levelForever .low) with bitIdx := 8#5 }) fun t =>
    t.frame == 0x100#32 && t.bitIdx == 9#5 && t.phase == .wBitLow := by decide

/-- V37: 1200 is a 0, and the write replaces a 1 that stood there. -/
theorem test_bit_zero : nextMeets (step { inWait .wBitHigh 1200#18 (levelForever .low) with
    bitIdx := 8#5, frame := 0xFFFFFFFF#32 }) fun t => t.frame == 0xFFFFFEFF#32 := by decide

/-- The example of R94: 799 failures and one more give 800 and a pause. -/
theorem test_failure_800 : nextMeets (step { inWait .wEdge 150001#18 (levelForever .high) with idle := 799#10 }) fun t =>
    t.idle == 800#10 && !t.actValid && t.phase == .gap && t.gap == 1000#10 && t.decValid && !t.decOk := by decide

/-- The example of R95: the 801st forces a stop with no notification and no pause. -/
theorem test_failure_801 : nextMeets (step { inWait .wEdge 150001#18 (levelForever .high) with idle := 800#10 }) fun t =>
    t.idle == 0#10 && t.act == some ⟨.stop, 0#16⟩ && !t.noteValid && t.phase == .wEdge && t.gap == 0#10 := by decide

/-- R96: the last tick of the pause. -/
theorem test_gap_ends : nextMeets (step { inWait .gap 0#18 (levelForever .low) with gap := 1#10 }) fun t =>
    t.phase == .wEdge && t.gap == 0#10 := by decide

/-- V81: reset in the middle of bit 20. -/
theorem test_reset_mid_frame : nextMeets (step { inWait .wBitHigh 100#18 [⟨true, .high, some 0⟩] with
    bitIdx := 20#5, speed := 65533#16, idle := 7#10, frame := 0xFF00#32 }) fun t =>
      t == { State.reset with clock := 1 } := by decide

/-! ## Witnesses: the hypotheses of the statements can be met -/

theorem witness_CommandMapSelectsByEquality : (0x45#8 : Byte) ≠ 0x18#8 ∧ (0x45#8 : Byte) ≠ 0x08#8 ∧
    (0x45#8 : Byte) ≠ 0x1C#8 ∧ (0x45#8 : Byte) ≠ 0x5A#8 ∧ (0x45#8 : Byte) ≠ 0x52#8 ∧ (0x45#8 : Byte) ≠ 0x09#8 ∧
    (0x45#8 : Byte) ≠ 0x15#8 ∧ (0x45#8 : Byte) ≠ 0x07#8 := by decide

theorem witness_EncodedFrameDecodesBack :
    (Instr.unknown 0xFF#8).wellFormed = true ∧ Instr.forward.wellFormed = true := by decide

theorem witness_AcceptedFrameIsAnEncoding : decodeFrame 0xE718FF00#32 = .ok .forward := by decide

theorem witness_SingleFlippedBitIsRejected : ∀ j ∈ [0, 15, 16, 31], j < 32 := by decide

theorem witness_FrameWriteReplacesOneBit : ∀ j ∈ [0, 31], j < 32 := by decide

theorem witness_IncSpeedAddsStepBelowLimit :
    (withSpeed 58982#16).speed.toNat ≤ 58982 ∧ 58983 ≤ (withSpeed 58983#16).speed.toNat := by decide

theorem witness_DecSpeedSubtractsStepAboveStep :
    6554 ≤ (withSpeed 6554#16).speed.toNat ∧ (withSpeed 6553#16).speed.toNat ≤ 6553 := by decide

theorem witness_DispatchNeverWrapsSpeed :
    nextMeets (exec .forward (withSpeed 65535#16)) (fun t => t.speed == 65535#16) = true ∧
    nextMeets (exec .resetSpeed (withSpeed 65535#16)) (fun t => t.speed == 32768#16) = true ∧
    nextMeets (exec .incSpeed (withSpeed 65535#16)) (fun t => t.speed == 65535#16) = true ∧
    nextMeets (exec .decSpeed (withSpeed 65535#16)) (fun t => t.speed == 58982#16) = true := by
  refine ⟨?_, ?_, ?_, ?_⟩ <;> decide

theorem witness_DispatchDependsOnCodeAndSpeedOnly :
    (withSpeed 3#16).speed = { withSpeed 3#16 with idle := 5#10, frame := 7#32 }.speed ∧
    nextMeets (exec .incSpeed (withSpeed 3#16)) (fun _ => true) = true ∧
    nextMeets (exec .incSpeed { withSpeed 3#16 with idle := 5#10, frame := 7#32 }) (fun _ => true) = true := by decide

/-- The resolve tick of bit 31 of this frame, after `e` high ticks. -/
def atBit31 (e : BitVec 18) (f : FrameWord) : State :=
  { inWait .wBitHigh e (levelForever .low) with bitIdx := 31#5, frame := f }

/-- Bit 31 at both ends of a 0 (for code 0xFF) and of a 1 (for code 0x18). -/
theorem witness_StepRunsDecodedCommand :
    (∀ e f, (atBit31 e f).pins = ⟨false, .low⟩ ∧ (atBit31 e f).phase = .wBitHigh ∧ (atBit31 e f).bitIdx = 31#5) ∧
    (∀ e ∈ [200#18, 1200#18, 1201#18, 2500#18], 200 ≤ e.toNat ∧ e.toNat ≤ 2500) ∧
    decodeFrame (replaceBit (atBit31 200#18 0x00FFFF00#32).frame 31#5 (decide (1200 < (200#18).toNat))) =
      .ok (.unknown 0xFF#8) ∧
    decodeFrame (replaceBit (atBit31 1200#18 0x00FFFF00#32).frame 31#5 (decide (1200 < (1200#18).toNat))) =
      .ok (.unknown 0xFF#8) ∧
    decodeFrame (replaceBit (atBit31 1201#18 0x6718FF00#32).frame 31#5 (decide (1200 < (1201#18).toNat))) = .ok .forward ∧
    decodeFrame (replaceBit (atBit31 2500#18 0x6718FF00#32).frame 31#5 (decide (1200 < (2500#18).toNat))) = .ok .forward :=
  ⟨fun _ _ => ⟨rfl, rfl, rfl⟩, by simp, by decide, by decide, by decide, by decide⟩

theorem witness_PlacedWordRunsAtNextStep : ∀ w ∈ [0, 0x18, 255], w < 256 := by decide

theorem witness_ResetTickRestoresResetState : (start [⟨true, .low, some 0⟩]).pins.rst = true := by decide

theorem witness_WaitTickCountsOrResolves :
    (∀ e x, waitOf (inWait .wEdge e (levelForever x)).phase = some ⟨.low, 150000⟩ ∧
      (inWait .wEdge e (levelForever x)).pins = ⟨false, x⟩ ∧ (inWait .wEdge e (levelForever x)).e = e) ∧
    (∀ e ∈ [0#18, 150000#18], e.toNat ≤ 150000) ∧ (150001#18).toNat = 150000 + 1 ∧ Level.high ≠ Level.low :=
  ⟨fun _ _ => ⟨rfl, rfl, rfl⟩, by simp, by decide, by decide⟩

theorem witness_ChecksumStageTestsBothPairs :
    (((0xE718FF01#32).extractLsb' 0 8).toNat + ((0xE718FF01#32).extractLsb' 8 8).toNat) % 256 ≠ 0xFF ∧
    (((0xE618FF00#32).extractLsb' 0 8).toNat + ((0xE618FF00#32).extractLsb' 8 8).toNat) % 256 = 0xFF ∧
    (((0xE618FF00#32).extractLsb' 16 8).toNat + ((0xE618FF00#32).extractLsb' 24 8).toNat) % 256 ≠ 0xFF ∧
    (((0xE718FF00#32).extractLsb' 0 8).toNat + ((0xE718FF00#32).extractLsb' 8 8).toNat) % 256 = 0xFF ∧
    (((0xE718FF00#32).extractLsb' 16 8).toNat + ((0xE718FF00#32).extractLsb' 24 8).toNat) % 256 = 0xFF := by decide

theorem witness_AbortCountsThenPausesOrForcesStop :
    { State.reset with idle := 799#10 }.idle.toNat + 1 ≤ 800 ∧ 800 < { State.reset with idle := 800#10 }.idle.toNat + 1 := by
  decide

theorem witness_FailureEndsTheAttemptAtOnce :
    nextMeets (step (inWait .wLead 7999#18 (levelForever .high))) (fun t => t.dec == some .fail) = true := by decide

theorem witness_SuccessResetsIdleAndDispatches :
    nextMeets (step (State.reset.withFetchWord 8 0x45)) (fun t => t.dec == some (.ok 0x45#8)) = true := by decide

theorem witness_SpeedChangesOnlyBySpeedCommands : (State.reset.withFetchWord 8 0x07).pins.rst = false ∧
    nextMeets (step (State.reset.withFetchWord 8 0x07)) (fun t => !(t.speed == State.reset.speed)) = true := by decide

theorem witness_ActuationsComeFromMovementsOrForcedStop :
    nextMeets (step (State.reset.withFetchWord 8 0x1C)) (fun t => t.act == some ⟨.stop, 0#16⟩) = true := by decide

theorem witness_UnknownOnlyNotifies : (0xFF#8 : Byte) ≠ 0x18#8 ∧ (0xFF#8 : Byte) ≠ 0x08#8 ∧ (0xFF#8 : Byte) ≠ 0x1C#8 ∧
    (0xFF#8 : Byte) ≠ 0x5A#8 ∧ (0xFF#8 : Byte) ≠ 0x52#8 ∧ (0xFF#8 : Byte) ≠ 0x09#8 ∧ (0xFF#8 : Byte) ≠ 0x15#8 ∧
    (0xFF#8 : Byte) ≠ 0x07#8 := by decide

theorem witness_PayloadsAreZeroWithoutValid : State.reset.actValid = false ∧ State.reset.noteValid = false ∧
    State.reset.decValid = false ∧ State.reset.decOk = false := by decide

/-- A run of one level and then one tick of another, as the stage statements take it. -/
theorem runThenTick {s : State} {a b : Level} {d : Nat} (h : s.inputs = trainRuns [(a, d), (b, 1)]) :
    lineHolds a d s ∧ s.pinsAt d = ⟨false, b⟩ := by
  obtain ⟨h1, h2, _⟩ := carries_trainRuns [(a, d), (b, 1)] [] s (by simpa using h)
  exact ⟨h1, (pinsAt_advanceBy d 0 s).symm.trans (h2 0 (by omega))⟩

theorem holdsForever {s : State} {l : Level} (h : s.inputs = levelForever l) (n : Nat) :
    lineHolds l n s ∧ noResetFor n s :=
  ⟨fun j _ => pinsAt_forever h j, fun j _ => by rw [pinsAt_forever h j]⟩

theorem witness_EdgeStagePassesOrTimesOut :
    (∀ rs, (start rs).phase = .wEdge ∧ (start rs).e = 0#18) ∧
    (∀ d ∈ [0, 150000], d ≤ 150000 ∧ lineHolds .high d (start (trainRuns [(.high, d), (.low, 1)])) ∧
      (start (trainRuns [(.high, d), (.low, 1)])).pinsAt d = ⟨false, .low⟩) ∧
    lineHolds .high 150001 (start (levelForever .high)) ∧ noResetFor 150002 (start (levelForever .high)) :=
  ⟨fun _ => ⟨rfl, rfl⟩, fun d hd => ⟨by simp at hd; omega, runThenTick rfl⟩, (holdsForever rfl _).1, (holdsForever rfl _).2⟩

/-- At both ends of the window and one past each, and at both ends of the wait. -/
theorem witness_LeadStageChecksItsWindow :
    (∀ rs, (inWait .wLead 1#18 rs).phase = .wLead ∧ (inWait .wLead 1#18 rs).e = 1#18) ∧
    (∀ d ∈ [1, 7999, 8000, 10000, 10001, 12000], 1 ≤ d ∧ d ≤ 12000 ∧
      lineHolds .low (d - 1) (inWait .wLead 1#18 (trainRuns [(.low, d - 1), (.high, 1)])) ∧
      (inWait .wLead 1#18 (trainRuns [(.low, d - 1), (.high, 1)])).pinsAt (d - 1) = ⟨false, .high⟩) ∧
    lineHolds .low 12000 (inWait .wLead 1#18 (levelForever .low)) ∧
    noResetFor 12001 (inWait .wLead 1#18 (levelForever .low)) :=
  ⟨fun _ => ⟨rfl, rfl⟩, fun d hd => ⟨by simp at hd; omega, by simp at hd; omega, runThenTick rfl⟩, (holdsForever rfl _).1,
    (holdsForever rfl _).2⟩

theorem witness_SpaceStageChecksItsWindow :
    (∀ rs, (inWait .wSpace 1#18 rs).phase = .wSpace ∧ (inWait .wSpace 1#18 rs).e = 1#18) ∧
    (∀ d ∈ [1, 3499, 3500, 5000, 5001, 7000], 1 ≤ d ∧ d ≤ 7000 ∧
      lineHolds .high (d - 1) (inWait .wSpace 1#18 (trainRuns [(.high, d - 1), (.low, 1)])) ∧
      (inWait .wSpace 1#18 (trainRuns [(.high, d - 1), (.low, 1)])).pinsAt (d - 1) = ⟨false, .low⟩) ∧
    lineHolds .high 7000 (inWait .wSpace 1#18 (levelForever .high)) ∧
    noResetFor 7001 (inWait .wSpace 1#18 (levelForever .high)) :=
  ⟨fun _ => ⟨rfl, rfl⟩, fun d hd => ⟨by simp at hd; omega, by simp at hd; omega, runThenTick rfl⟩, (holdsForever rfl _).1,
    (holdsForever rfl _).2⟩

theorem witness_BitLowStagePassesOrTimesOut :
    (∀ rs, (inWait .wBitLow 1#18 rs).phase = .wBitLow ∧ (inWait .wBitLow 1#18 rs).e = 1#18) ∧
    (∀ d ∈ [1, 1000], 1 ≤ d ∧ d ≤ 1000 ∧
      lineHolds .low (d - 1) (inWait .wBitLow 1#18 (trainRuns [(.low, d - 1), (.high, 1)])) ∧
      (inWait .wBitLow 1#18 (trainRuns [(.low, d - 1), (.high, 1)])).pinsAt (d - 1) = ⟨false, .high⟩) ∧
    lineHolds .low 1000 (inWait .wBitLow 1#18 (levelForever .low)) ∧
    noResetFor 1001 (inWait .wBitLow 1#18 (levelForever .low)) :=
  ⟨fun _ => ⟨rfl, rfl⟩, fun d hd => ⟨by simp at hd; omega, by simp at hd; omega, runThenTick rfl⟩, (holdsForever rfl _).1,
    (holdsForever rfl _).2⟩

/-- For a bit below 31 and for bit 31, at both ends of what is too short, a 0 and a 1. -/
theorem witness_BitHighStageMeasuresTheBit :
    (∀ rs, (inWait .wBitHigh 1#18 rs).phase = .wBitHigh ∧ (inWait .wBitHigh 1#18 rs).e = 1#18) ∧
    (∀ i ∈ [0#5, 30#5, 31#5], ∀ d ∈ [1, 199, 200, 1200, 1201, 2500], 1 ≤ d ∧ d ≤ 2500 ∧
      lineHolds .high (d - 1) { inWait .wBitHigh 1#18 (trainRuns [(.high, d - 1), (.low, 1)]) with bitIdx := i } ∧
      { inWait .wBitHigh 1#18 (trainRuns [(.high, d - 1), (.low, 1)]) with bitIdx := i }.pinsAt (d - 1) = ⟨false, .low⟩) ∧
    (30#5).toNat < 31 ∧
    lineHolds .high 2500 (inWait .wBitHigh 1#18 (levelForever .high)) ∧
    noResetFor 2501 (inWait .wBitHigh 1#18 (levelForever .high)) :=
  ⟨fun _ => ⟨rfl, rfl⟩, fun _ _ d hd => ⟨by simp at hd; omega, by simp at hd; omega, runThenTick rfl⟩, by decide, (holdsForever rfl _).1,
    (holdsForever rfl _).2⟩

theorem witness_GapLastsItsTicks : ∀ g ∈ [1#10, 1000#10],
    { inWait .gap 0#18 (levelForever .low) with gap := g }.phase = .gap ∧ 1 ≤ g.toNat ∧
    noResetFor g.toNat { inWait .gap 0#18 (levelForever .low) with gap := g } :=
  fun g hg => ⟨rfl, by revert g; decide, (holdsForever rfl _).2⟩

theorem witness_EveryTickKeepsTheInvariant : inv (start (levelForever .low)) = true ∧
    nextMeets (step (start (levelForever .low))) (fun _ => true) = true := by decide

theorem witness_NoRunStopsUnderTheInvariant : inv State.reset = true := by decide

theorem witness_EveryTickKeepsSpeedReachable : speedReachable (State.reset.withFetchWord 8 0x15) ∧
    nextMeets (step (State.reset.withFetchWord 8 0x15)) (fun t => t.speed == 39321#16) = true :=
  ⟨⟨5, by decide, by decide⟩, by decide⟩

/-- The target seen exactly at the timeout (V2), and never (V3). -/
theorem witness_LevelWaitResultIsTheLeastElapsed :
    ((fun n => if n < 150000 then Level.high else .low) (0 + 150000) = Level.low ∧
      ∀ j < 150000, (fun n => if n < 150000 then Level.high else .low) (0 + j) ≠ Level.low) ∧
    ∀ e ≤ 150000, (fun _ => Level.high) (0 + e) ≠ Level.low := by
  refine ⟨⟨by decide, fun j hj => ?_⟩, fun _ _ => by simp⟩
  simp [hj]

theorem witness_MachineRefinesDecode : atAttemptStart (start (levelForever .high)) ∧
    noResetFor ((decodeAttempt (start (levelForever .high)).lineAt (start (levelForever .high)).frame 0).2 + 1)
      (start (levelForever .high)) :=
  ⟨⟨rfl, rfl, rfl⟩, (holdsForever rfl _).2⟩

theorem witness_MachineRefinesIterate : atAttemptStart { start (levelForever .low) with idle := 800#10 } ∧
    { start (levelForever .low) with idle := 800#10 }.idle.toNat ≤ 800 ∧
    ∀ r, r = iterate { start (levelForever .low) with idle := 800#10 }.lineAt 0#32 800 32768#16 0 →
      noResetFor r.start { start (levelForever .low) with idle := 800#10 } :=
  ⟨⟨rfl, rfl, rfl⟩, by decide, fun _ _ => (holdsForever rfl _).2⟩

theorem witness_AttemptResolvesWithin277001Ticks : atAttemptStart (start (levelForever .low)) ∧
    noResetFor 277002 (start (levelForever .low)) :=
  ⟨⟨rfl, rfl, rfl⟩, (holdsForever rfl _).2⟩

theorem witness_OldFrameNeverReachesAnOutput : (start (levelForever .low)).phase = .wEdge ∧
    ∃ t, RunsTo 1 (start (levelForever .low)) t :=
  ⟨rfl, _, runsTo_one (step_seen (w := ⟨.low, 150000⟩) rfl (by decide) (by decide))⟩

/-- The high parts of NEC(0x00, 0x18) with these lengths for a 1 and a 0. -/
def highParts (d1 d0 k : Nat) : Nat :=
  if (encodeFrame 0x00#8 .forward).getLsbD k then d1 else d0

/-- The train of the next witness. -/
def forwardTrain (a0 lead space lo d1 d0 : Nat) : Train :=
  (.high, a0) :: necShape lead space (fun _ => lo) (highParts d1 d0)

/-- The shortest and the longest accepted train (spec/95_test_vectors.md). -/
theorem witness_PulseTrainRunsItsInstruction :
    (∀ rs, atAttemptStart (start rs)) ∧ Instr.forward.wellFormed = true ∧
    (∀ k < 32, if (encodeFrame 0x00#8 .forward).getLsbD k then
        1201 ≤ highParts 1201 200 k ∧ highParts 1201 200 k ≤ 2500
      else 200 ≤ highParts 1201 200 k ∧ highParts 1201 200 k ≤ 1200) ∧
    (∀ k < 32, if (encodeFrame 0x00#8 .forward).getLsbD k then
        1201 ≤ highParts 2500 1200 k ∧ highParts 2500 1200 k ≤ 2500
      else 200 ≤ highParts 2500 1200 k ∧ highParts 2500 1200 k ≤ 1200) ∧
    carries (start (trainRuns (forwardTrain 0 8000 3500 1 1201 200))) (forwardTrain 0 8000 3500 1 1201 200) ∧
    carries (start (trainRuns (forwardTrain 150000 10000 5000 1000 2500 1200)))
      (forwardTrain 150000 10000 5000 1000 2500 1200) :=
  ⟨fun _ => ⟨rfl, rfl, rfl⟩, by decide, by decide, by decide, carries_trainRuns _ [] _ (List.append_nil _).symm,
    carries_trainRuns _ [] _ (List.append_nil _).symm⟩

theorem witness_IdleLineForcesStopAtTick120951601 : atAttemptStart (start (levelForever .high)) ∧
    (start (levelForever .high)).idle = 0#10 ∧ ∀ n, (start (levelForever .high)).pinsAt n = ⟨false, .high⟩ :=
  ⟨⟨rfl, rfl, rfl⟩, rfl, pinsAt_forever rfl⟩

end Sys2Proof.Tests
end

section
/-! PROOFS. Decoding after encoding: a byte and its complement pass the checksum, the command map inverts the encoder on
well-formed instructions, and stage 5 accepts every `NEC(A, C)` frame (spec/30_encoding.md rules R41, R44, R46). -/

namespace Sys2Proof

/-- A byte and its complement sum to 0xFF (R69). -/
@[simp] theorem pairChecks_not (b : Byte) : pairChecks b (~~~b) = true := by
  have hb : b.toNat < 2 ^ 8 := b.isLt
  have hsum : b.toNat + (~~~b).toNat = 0xFF := by rw [BitVec.toNat_not]; omega
  simp only [pairChecks, hsum]
  decide

/-- Every frame `NEC(A, C)` is accepted, whatever its address, and spells the command of its code (R41, R46). -/
theorem decodeFrame_necFrame (a c : Byte) : decodeFrame (necFrame a c) = .ok (decodeCommand c) := by
  rw [decodeFrame_ok_iff]
  simp [necFrame, commandByte]

/-- Four bytes decode to what their packed frame decodes to. -/
theorem decode_four_of_decodeFrame {b0 b1 b2 b3 : Byte} {i : Instr} (h : decodeFrame (packFrame b0 b1 b2 b3) = .ok i) :
    decode [b0, b1, b2, b3] = .ok i := by
  simp [decode, h]

/-- The command map inverts the encoder on the instructions some code spells (R44). -/
theorem decodeCommand_encode {i : Instr} (hi : i.wellFormed = true) : decodeCommand (encode i) = i := by
  cases i with
  | unknown code => exact decodeCommand_unlisted (by simpa [Instr.wellFormed, encode] using hi)
  | forward | left | stop | right | backward | resetSpeed | incSpeed | decSpeed => rfl

/-- A frame that carries a well-formed instruction decodes to it, from any address (R41, R44, R46). -/
theorem decodeFrame_encodeFrame (a : Byte) {i : Instr} (hi : i.wellFormed = true) :
    decodeFrame (encodeFrame a i) = .ok i := by
  rw [encodeFrame, decodeFrame_necFrame, decodeCommand_encode hi]

/-- Settles O3: the frame and its bytes share the round trip through the command map. -/
theorem encodedFrameDecodesBack : Obligations.EncodedFrameDecodesBack := by
  intro a i hi
  have hframe := decodeFrame_encodeFrame a hi
  exact ⟨hframe, decode_four_of_decodeFrame hframe, rfl⟩

/-- Settles O1: the eight rows by `decodeCommand_encode`, the catch-all by the lookup missing the table. -/
theorem commandMapSelectsByEquality : Obligations.CommandMapSelectsByEquality := by
  refine ⟨decodeCommand_encode (i := .forward) rfl, decodeCommand_encode (i := .left) rfl,
    decodeCommand_encode (i := .stop) rfl, decodeCommand_encode (i := .right) rfl,
    decodeCommand_encode (i := .backward) rfl, decodeCommand_encode (i := .resetSpeed) rfl,
    decodeCommand_encode (i := .incSpeed) rfl, decodeCommand_encode (i := .decSpeed) rfl, ?_⟩
  intro c hforward hleft hstop hright hbackward hreset hinc hdec
  have hunlisted : Config.listedCodes.contains c = false := by
    simp [Config.listedCodes, Config.codeForward, Config.codeLeft, Config.codeStop, Config.codeRight,
      Config.codeBackward, Config.codeResetSpeed, Config.codeIncSpeed, Config.codeDecSpeed, *]
  exact decodeCommand_unlisted hunlisted

end Sys2Proof
end

section
/-! PROOFS. Stage 5 and the command map read backwards: an accepted frame is the encoding of what it decodes to
(spec/41_frame_decoder.md rule R69 and what the spec derives from it). -/

namespace Sys2Proof

/-- Two bytes sum to 0xFF exactly when they are complements (R69): modulo 256 the sum fixes the second byte. -/
theorem pairChecks_iff (b c : Byte) : pairChecks b c = true ↔ c = ~~~b := by
  constructor
  · intro h
    have hsum : (b.toNat + c.toNat) % 256 = 255 := by simpa [pairChecks] using h
    apply BitVec.eq_of_toNat_eq
    rw [BitVec.toNat_not]
    have hb := b.isLt
    have hc := c.isLt
    omega
  · rintro rfl
    exact pairChecks_not b

/-- A frame is its four bytes in arrival order (R30). -/
theorem packFrame_frameBytes (f : FrameWord) :
    packFrame (frameByte 0 f) (frameByte 1 f) (frameByte 2 f) (frameByte 3 f) = f := by
  apply BitVec.eq_of_getLsbD_eq
  intro i hi
  simp only [getLsbD_packFrame _ _ _ _ _ hi, getLsbD_frameByte]
  split
  · simp [*]
  · split
    · simp [show i - 8 < 8 by omega, show 8 + (i - 8) = i by omega]
    · split
      · simp [show i - 16 < 8 by omega, show 16 + (i - 16) = i by omega]
      · simp [show i - 24 < 8 by omega, show 24 + (i - 24) = i by omega]

/-- What the command map answers is spelled by a code, and that code is the one it was asked for (R44). -/
theorem decodeCommand_spelled (c : Byte) : (decodeCommand c).wellFormed = true ∧ encode (decodeCommand c) = c := by
  cases hlisted : Config.listedCodes.contains c with
  | true =>
    have hmem : c ∈ Config.listedCodes := by simpa using hlisted
    simp only [Config.listedCodes, List.mem_cons, List.not_mem_nil, or_false] at hmem
    rcases hmem with rfl | rfl | rfl | rfl | rfl | rfl | rfl | rfl <;> exact ⟨rfl, rfl⟩
  | false =>
    rw [decodeCommand_unlisted hlisted]
    exact ⟨by simpa [Instr.wellFormed] using hlisted, rfl⟩

/-- A frame whose two pairs check is the frame `NEC(A, C)` of its address and command bytes (R41, R69). -/
theorem eq_necFrame_of_pairs {f : FrameWord} (haddr : pairChecks (frameByte 0 f) (frameByte 1 f) = true)
    (hcmd : pairChecks (frameByte 2 f) (frameByte 3 f) = true) : f = necFrame (frameByte 0 f) (commandByte f) := by
  rw [pairChecks_iff] at haddr hcmd
  rw [necFrame, commandByte, ← haddr, ← hcmd, packFrame_frameBytes]

/-- Settles O4: both pairs of an accepted frame check, and the command map answers with the frame's own code. -/
theorem acceptedFrameIsAnEncoding : Obligations.AcceptedFrameIsAnEncoding := by
  intro f i h
  obtain ⟨haddr, hcmd, rfl⟩ := (decodeFrame_ok_iff f i).1 h
  obtain ⟨hwf, hcode⟩ := decodeCommand_spelled (commandByte f)
  exact ⟨hwf, by rw [encodeFrame, hcode]; exact eq_necFrame_of_pairs haddr hcmd⟩

end Sys2Proof
end

section
/-! PROOFS. The five stages of an attempt, each over all the ticks of its wait (spec/41_frame_decoder.md rules R62 to R67):
what a wait on a steady line hands to its stage, and then what each stage does with it. -/

namespace Sys2Proof.Machine

/-! ### The registers a wait leaves alone -/

@[simp] theorem quietAfter_phase (n : Nat) (s : State) : (quietAfter n s).phase = s.phase := rfl
@[simp] theorem quietAfter_bitIdx (n : Nat) (s : State) : (quietAfter n s).bitIdx = s.bitIdx := rfl
@[simp] theorem quietAfter_frame (n : Nat) (s : State) : (quietAfter n s).frame = s.frame := rfl

/-! ### The windows as inequalities -/

theorem leadInWindow_iff (d : Nat) : leadInWindow d = true ↔ 8000 ≤ d ∧ d ≤ 10000 := by simp [leadInWindow]

theorem spaceInWindow_iff (d : Nat) : spaceInWindow d = true ↔ 3500 ≤ d ∧ d ≤ 5000 := by simp [spaceInWindow]

theorem bitTooShort_iff (d : Nat) : bitTooShort d = true ↔ d < 200 := by simp [bitTooShort]

/-! ### The stage of each phase -/

theorem resolveWait_wEdge {s : State} (hp : s.phase = .wEdge) (d : Option Nat) :
    resolveWait d s = .next (edgeStage d s) := by simp [resolveWait, hp]

theorem resolveWait_wLead {s : State} (hp : s.phase = .wLead) (d : Option Nat) :
    resolveWait d s = .next (leadStage d s) := by simp [resolveWait, hp]

theorem resolveWait_wSpace {s : State} (hp : s.phase = .wSpace) (d : Option Nat) :
    resolveWait d s = .next (spaceStage d s) := by simp [resolveWait, hp]

theorem resolveWait_wBitLow {s : State} (hp : s.phase = .wBitLow) (d : Option Nat) :
    resolveWait d s = .next (bitLowStage d s) := by simp [resolveWait, hp]

theorem resolveWait_wBitHigh {s : State} (hp : s.phase = .wBitHigh) (d : Option Nat) :
    resolveWait d s = bitHighStage d s := by simp [resolveWait, hp]

/-- Stage 2 on a measured lead pulse (R63). -/
theorem leadStage_measured (d : Nat) (s : State) :
    leadStage (some d) s =
      if 8000 ≤ d ∧ d ≤ 10000 then enterWait .wSpace s else abortAttempt .leadWindow s := by
  simp only [leadStage, leadInWindow_iff]

/-- Stage 3 on a measured space (R64). -/
theorem spaceStage_measured (d : Nat) (s : State) :
    spaceStage (some d) s =
      if 3500 ≤ d ∧ d ≤ 5000 then setBitIdx 0#5 (enterWait .wBitLow s) else abortAttempt .spaceWindow s := by
  simp only [spaceStage, spaceInWindow_iff]

/-- A low part that times out is a failure of the bit being read (R65). -/
theorem bitLowStage_timedOut (s : State) : bitLowStage none s = abortAttempt (.bitLowTimeout s.bitIdx) s := rfl

/-- The frame after a measurement has a 1 in the bit's place exactly when the high part is longer than 1200 ticks (R67). -/
theorem frameWithBit_eq (d : Nat) (s : State) :
    frameWithBit d s = replaceBit s.frame s.bitIdx (decide (1200 < d)) := rfl

/-- A high part that times out is a failure of the bit being read (R66). -/
theorem bitHighStage_timedOut (s : State) :
    bitHighStage none s = .next (abortAttempt (.bitHighTimeout s.bitIdx) s) := rfl

/-- A high part below 200 ticks is no bit (R66). -/
theorem bitHighStage_short {d : Nat} (hd : d < 200) (s : State) :
    bitHighStage (some d) s = .next (abortAttempt (.bitShort s.bitIdx) s) :=
  if_pos ((bitTooShort_iff d).2 hd)

/-- A bit below 31 goes to its place, and the next bit follows (R66, R67). -/
theorem bitHighStage_next {d : Nat} {s : State} (hd : 200 ≤ d) (hi : s.bitIdx.toNat < 31) :
    bitHighStage (some d) s =
      .next (enterWait .wBitLow (setBitIdx (s.bitIdx + 1#5) (setFrame (frameWithBit d s) s))) := by
  have hlong : ¬ bitTooShort d = true := by rw [bitTooShort_iff]; omega
  simp [bitHighStage, hlong, hi]

/-- Bit 31 goes to its place, and stage 5 follows in the same tick (R66, R67, R73). -/
theorem bitHighStage_last {d : Nat} {s : State} (hd : 200 ≤ d) (hi : s.bitIdx = 31#5) :
    bitHighStage (some d) s = checksumStage (frameWithBit d s) (setFrame (frameWithBit d s) s) := by
  have hlong : ¬ bitTooShort d = true := by rw [bitTooShort_iff]; omega
  simp [bitHighStage, hlong, hi]

/-! ### A wait on a steady line -/

section SteadyLine

variable {s t : State} {w : Wait} {l : Level} {d k : Nat}

/-- On a line that holds another level than the target no tick resolves the wait. -/
theorem lineHolds_avoids_target (hl : l ≠ w.target) (hline : lineHolds l k s) :
    ∀ j < k, (s.pinsAt j).rst = false ∧ (s.pinsAt j).ir ≠ w.target :=
  fun j hj => by rw [hline j hj]; exact ⟨rfl, hl⟩

/-- After `k` ticks of another level the target is sampled: the stage is given the elapsed count (R56, R59). -/
theorem steady_wait_seen (hw : waitOf s.phase = some w) (hl : l ≠ w.target) (hd : s.e.toNat + k = d)
    (hto : d ≤ w.timeout) (hline : lineHolds l k s) (hend : s.pinsAt k = ⟨false, w.target⟩) :
    RunsTo k s (waited k s) ∧ step (waited k s) = resolveWait (some d) (quietAfter (k + 1) s) := by
  subst hd
  exact wait_resolves_seen hw hto (lineHolds_avoids_target hl hline) hend

/-- After another level through the whole timeout the stage is given the sentinel, whatever the line is then (R55, R60). -/
theorem steady_wait_timedOut (hw : waitOf s.phase = some w) (hl : l ≠ w.target) (hto : s.e.toNat + k = w.timeout + 1)
    (hline : lineHolds l k s) (hend : (s.pinsAt k).rst = false)
    (hstage : resolveWait none (quietAfter (k + 1) s) = .next t) : RunsTo (k + 1) s t := by
  obtain ⟨hrun, hstep⟩ := wait_resolves_timedOut hw hto (lineHolds_avoids_target hl hline) hend
  exact runsTo_last hrun (hstep.trans hstage)

/-- Stages 2 to 4 start at elapsed 1, the first tick of the part they measure being the tick before: a part of `d` ticks
resolves at the `d`-th tick (R57, R73). -/
theorem measured_wait_seen (hw : waitOf s.phase = some w) (hl : l ≠ w.target) (he : s.e = 1#18) (hpos : 1 ≤ d)
    (hto : d ≤ w.timeout) (hline : lineHolds l (d - 1) s) (hend : s.pinsAt (d - 1) = ⟨false, w.target⟩) :
    RunsTo (d - 1) s (waited (d - 1) s) ∧ step (waited (d - 1) s) = resolveWait (some d) (quietAfter d s) := by
  have hcount : s.e.toNat + (d - 1) = d := by rw [he, BitVec.toNat_ofNat]; omega
  have h := steady_wait_seen hw hl hcount hto hline hend
  rwa [Nat.sub_add_cancel hpos] at h

/-- The same, where the stage answers a next state. -/
theorem runsTo_measured (hw : waitOf s.phase = some w) (hl : l ≠ w.target) (he : s.e = 1#18) (hpos : 1 ≤ d)
    (hto : d ≤ w.timeout) (hline : lineHolds l (d - 1) s) (hend : s.pinsAt (d - 1) = ⟨false, w.target⟩)
    (hstage : resolveWait (some d) (quietAfter d s) = .next t) : RunsTo d s t := by
  obtain ⟨hrun, hstep⟩ := measured_wait_seen hw hl he hpos hto hline hend
  have h := runsTo_last hrun (hstep.trans hstage)
  rwa [Nat.sub_add_cancel hpos] at h

/-- A measured part that lasts through the timeout fails one tick later (R55). -/
theorem runsTo_unmeasured (hw : waitOf s.phase = some w) (hl : l ≠ w.target) (he : s.e = 1#18)
    (hline : lineHolds l w.timeout s) (hend : (s.pinsAt w.timeout).rst = false)
    (hstage : resolveWait none (quietAfter (w.timeout + 1) s) = .next t) : RunsTo (w.timeout + 1) s t :=
  steady_wait_timedOut hw hl (by rw [he, BitVec.toNat_ofNat]; omega) hline hend hstage

end SteadyLine

/-! ### The obligations -/

/-- Settles O32: stage 1 starts at elapsed 0 and passes on any success. -/
theorem edgeStagePassesOrTimesOut : Obligations.EdgeStagePassesOrTimesOut := by
  intro s hp he
  have hw : waitOf s.phase = some ⟨.low, 150000⟩ := by rw [hp]; rfl
  have hphase : ∀ n, (quietAfter n s).phase = .wEdge := fun n => (quietAfter_phase n s).trans hp
  have hl : Level.high ≠ .low := by decide
  refine ⟨fun d hd hline hend => ?_, fun hline hend => ?_⟩
  · obtain ⟨hrun, hstep⟩ := steady_wait_seen hw hl (d := d) (by simp [he]) hd hline hend
    exact runsTo_last hrun (hstep.trans (resolveWait_wEdge (hphase _) _))
  · exact steady_wait_timedOut hw hl (by simp [he]) hline hend (resolveWait_wEdge (hphase _) _)

/-- Settles O33: a measured lead pulse meets the window of stage 2. -/
theorem leadStageChecksItsWindow : Obligations.LeadStageChecksItsWindow := by
  intro s hp he
  have hw : waitOf s.phase = some ⟨.high, 12000⟩ := by rw [hp]; rfl
  have hphase : ∀ n, (quietAfter n s).phase = .wLead := fun n => (quietAfter_phase n s).trans hp
  have hl : Level.low ≠ .high := by decide
  refine ⟨fun d hpos hd hline hend => ?_, fun hline hend => ?_⟩
  · refine runsTo_measured hw hl he hpos hd hline hend ?_
    rw [resolveWait_wLead (hphase _), leadStage_measured]
    rfl
  · exact runsTo_unmeasured hw hl he hline hend (resolveWait_wLead (hphase _) _)

/-- Settles O34: a measured space meets the window of stage 3. -/
theorem spaceStageChecksItsWindow : Obligations.SpaceStageChecksItsWindow := by
  intro s hp he
  have hw : waitOf s.phase = some ⟨.low, 7000⟩ := by rw [hp]; rfl
  have hphase : ∀ n, (quietAfter n s).phase = .wSpace := fun n => (quietAfter_phase n s).trans hp
  have hl : Level.high ≠ .low := by decide
  refine ⟨fun d hpos hd hline hend => ?_, fun hline hend => ?_⟩
  · refine runsTo_measured hw hl he hpos hd hline hend ?_
    rw [resolveWait_wSpace (hphase _), spaceStage_measured]
    rfl
  · exact runsTo_unmeasured hw hl he hline hend (resolveWait_wSpace (hphase _) _)

/-- Settles O35: the low part of a bit passes whatever its length. -/
theorem bitLowStagePassesOrTimesOut : Obligations.BitLowStagePassesOrTimesOut := by
  intro s hp he
  have hw : waitOf s.phase = some ⟨.high, 1000⟩ := by rw [hp]; rfl
  have hphase : ∀ n, (quietAfter n s).phase = .wBitLow := fun n => (quietAfter_phase n s).trans hp
  have hl : Level.low ≠ .high := by decide
  refine ⟨fun d hpos hd hline hend => ?_, fun hline hend => ?_⟩
  · exact runsTo_measured hw hl he hpos hd hline hend (resolveWait_wBitLow (hphase _) _)
  · refine runsTo_unmeasured hw hl he hline hend ?_
    rw [resolveWait_wBitLow (hphase _), bitLowStage_timedOut, quietAfter_bitIdx]

/-- Settles O36: a measured high part is too short, a bit below 31, or bit 31. -/
theorem bitHighStageMeasuresTheBit : Obligations.BitHighStageMeasuresTheBit := by
  intro s hp he
  have hw : waitOf s.phase = some ⟨.low, 2500⟩ := by rw [hp]; rfl
  have hphase : ∀ n, (quietAfter n s).phase = .wBitHigh := fun n => (quietAfter_phase n s).trans hp
  have hl : Level.high ≠ .low := by decide
  refine ⟨fun d hpos hd hline hend => ⟨fun hshort => ?_, fun hlong hi => ?_, fun hlong hi => ?_⟩, fun hline hend => ?_⟩
  · exact runsTo_measured hw hl he hpos hd hline hend ((resolveWait_wBitHigh (hphase _) _).trans (bitHighStage_short hshort _))
  · exact runsTo_measured hw hl he hpos hd hline hend ((resolveWait_wBitHigh (hphase _) _).trans (bitHighStage_next hlong hi))
  · obtain ⟨hrun, hstep⟩ := measured_wait_seen hw hl he hpos hd hline hend
    have hstage := (resolveWait_wBitHigh (hphase d) (some d)).trans (bitHighStage_last hlong hi)
    have hframe : frameWithBit d (quietAfter d s) = replaceBit s.frame 31#5 (decide (1200 < d)) := by
      rw [frameWithBit_eq, quietAfter_frame, quietAfter_bitIdx, hi]
    rw [hframe] at hstage
    exact ⟨_, hrun, hstep.trans hstage⟩
  · refine runsTo_unmeasured hw hl he hline hend ?_
    rw [resolveWait_wBitHigh (hphase _), bitHighStage_timedOut, quietAfter_bitIdx]

end Sys2Proof.Machine
end

section
/-! PROOFS. The dispatcher (spec/42_dispatcher.md rules R79 to R88): what `exec` answers on every state, in the words of the
functional forms, what the ports then show, and the nine rows as instances. -/

namespace Sys2Proof.Machine

/-! ### The ports beside an event -/

section Ports

variable {t : State}

/-- The actuation ports show the event of the tick (R25, R48). -/
theorem actPorts_of_act {op : ActOp} {d : Duty} (h : t.act = some ⟨op, d⟩) :
    t.actValid = true ∧ t.actOp = op.code ∧ t.actDuty = d := by
  simp [State.actValid, State.actOp, State.actDuty, h]

/-- The notification ports show the event of the tick (R25, R49). -/
theorem notePorts_of_note {a : NoteAction} {c : Byte} (h : t.note = some ⟨a, c⟩) :
    t.noteValid = true ∧ t.noteAction = a.code ∧ t.noteCode = c := by
  simp [State.noteValid, State.noteAction, State.noteCode, h]

end Ports

/-! ### The speed arithmetic -/

/-- The integer increase of R86 is the addition of words, which cannot wrap under the test. -/
theorem increasedSpeed_eq (v : Duty) : increasedSpeed v = if v.toNat + 6553 < 65536 then v + 6553#16 else v := by
  simp only [increasedSpeed, BitVec.ofNat_add, BitVec.ofNat_toNat, BitVec.setWidth_eq]

theorem toNat_increasedSpeed_of_le {v : Duty} (h : v.toNat ≤ 58982) : (increasedSpeed v).toNat = v.toNat + 6553 := by
  rw [increasedSpeed_eq, if_pos (by omega), BitVec.toNat_add, BitVec.toNat_ofNat]
  omega

theorem increasedSpeed_of_ge {v : Duty} (h : 58983 ≤ v.toNat) : increasedSpeed v = v := by
  rw [increasedSpeed_eq, if_neg (by omega)]

theorem toNat_decreasedSpeed_of_ge {v : Duty} (h : 6554 ≤ v.toNat) : (decreasedSpeed v).toNat = v.toNat - 6553 := by
  have hstep : Config.profile.speedStep < v.toNat := h
  rw [decreasedSpeed, if_pos hstep, Config.profile_speedStep, BitVec.toNat_ofNat]
  omega

theorem decreasedSpeed_of_le {v : Duty} (h : v.toNat ≤ 6553) : decreasedSpeed v = v :=
  if_neg (Nat.not_lt.2 h)

/-- The integer decrease of R87 is the subtraction of words, which cannot borrow under the test. -/
theorem decreasedSpeed_eq (v : Duty) : decreasedSpeed v = if 6553 < v.toNat then v - 6553#16 else v := by
  split
  case isTrue h =>
    apply BitVec.eq_of_toNat_eq
    rw [toNat_decreasedSpeed_of_ge h, BitVec.toNat_sub, BitVec.toNat_ofNat]
    omega
  case isFalse h => exact decreasedSpeed_of_le (Nat.not_lt.1 h)

/-! ### What a dispatch answers -/

/-- From every state a dispatch writes the speed and the notification of its row, and the actuation where its row has one:
the other rows leave `act` as they found it (R79, assumption log 10). -/
theorem exec_eq (i : Instr) (s : State) :
    exec i s = .next { s with
      speed := speedAfter i s.speed
      act := (actuationOf i s.speed).or s.act
      note := some ⟨notedAction i, encode i⟩ } := by
  cases i with
  | forward | left | stop | right | backward | unknown => rfl
  | resetSpeed | incSpeed | decSpeed =>
    simp only [exec, execResetSpeed, execIncSpeed, execDecSpeed, emitNote, setSpeed, actuationOf, Option.none_or]
    rfl

/-- A row with an actuation and no speed write: the whole next state, and the six ports of its two events. -/
theorem exec_movement {i : Instr} {s : State} {op : ActOp} {d : Duty} (hact : actuationOf i s.speed = some ⟨op, d⟩)
    (hspeed : speedAfter i s.speed = s.speed) :
    ∃ t, exec i s = .next t ∧
      t = { s with act := some ⟨op, d⟩, note := some ⟨notedAction i, encode i⟩ } ∧
      t.actValid = true ∧ t.actOp = op.code ∧ t.actDuty = d ∧
      t.noteValid = true ∧ t.noteAction = (notedAction i).code ∧ t.noteCode = encode i := by
  have hexec := exec_eq i s
  rw [hact, hspeed] at hexec
  obtain ⟨hactValid, hop, hduty⟩ := actPorts_of_act (t := { s with
    act := some ⟨op, d⟩, note := some ⟨notedAction i, encode i⟩ }) rfl
  exact ⟨_, hexec, rfl, hactValid, hop, hduty, notePorts_of_note rfl⟩

/-- A row without an actuation: the whole next state, and the three ports of its notification. -/
theorem exec_noActuation {i : Instr} {s : State} (hact : actuationOf i s.speed = none) :
    ∃ t, exec i s = .next t ∧
      t = { s with speed := speedAfter i s.speed, note := some ⟨notedAction i, encode i⟩ } ∧
      t.noteValid = true ∧ t.noteAction = (notedAction i).code ∧ t.noteCode = encode i := by
  have hexec := exec_eq i s
  rw [hact, Option.none_or] at hexec
  exact ⟨_, hexec, rfl, notePorts_of_note rfl⟩

/-! ### The obligations -/

/-- Settles O14: the equation of words gives the next state, the integer readings its two ranges. -/
theorem incSpeedAddsStepBelowLimit : Obligations.IncSpeedAddsStepBelowLimit := by
  refine ⟨rfl, decodeCommand_encode (i := .incSpeed) rfl, fun s => ?_⟩
  obtain ⟨t, hexec, ht, hports⟩ := exec_noActuation (i := .incSpeed) (s := s) rfl
  have hspeed : t.speed = increasedSpeed s.speed := by simp only [ht, speedAfter]
  refine ⟨t, hexec, ?_, fun hle => ?_, fun hge => ?_, hports⟩
  · rw [← increasedSpeed_eq]; exact ht
  · rw [hspeed, toNat_increasedSpeed_of_le hle]
  · rw [hspeed, increasedSpeed_of_ge hge]

/-- Settles O15: as O14, with what is left above the step being at least 1. -/
theorem decSpeedSubtractsStepAboveStep : Obligations.DecSpeedSubtractsStepAboveStep := by
  refine ⟨rfl, decodeCommand_encode (i := .decSpeed) rfl, fun s => ?_⟩
  obtain ⟨t, hexec, ht, hports⟩ := exec_noActuation (i := .decSpeed) (s := s) rfl
  have hspeed : t.speed = decreasedSpeed s.speed := by simp only [ht, speedAfter]
  refine ⟨t, hexec, ?_, fun hge => ?_, fun hle => ?_, hports⟩
  · rw [← decreasedSpeed_eq]; exact ht
  · rw [hspeed, toNat_decreasedSpeed_of_ge hge]; omega
  · rw [hspeed, decreasedSpeed_of_le hle]

/-- Settles O16: the command map's catch-all, and a row with neither actuation nor speed write. -/
theorem unknownOnlyNotifies : Obligations.UnknownOnlyNotifies := by
  obtain ⟨-, -, -, -, -, -, -, -, hcatchAll⟩ := commandMapSelectsByEquality
  refine ⟨fun c hforward hleft hstop hright hbackward hreset hinc hdec => ⟨?_, rfl⟩,
    fun c _ => exec_noActuation (i := .unknown c) rfl⟩
  exact hcatchAll c hforward hleft hstop hright hbackward hreset hinc hdec

/-- Settles O13: a row without an actuation, whose speed is 32768 whatever it was. -/
theorem resetSpeedSetsHalfDuty : Obligations.ResetSpeedSetsHalfDuty :=
  ⟨rfl, decodeCommand_encode (i := .resetSpeed) rfl, fun _ => exec_noActuation (i := .resetSpeed) rfl⟩

/-- Settles O8: a movement at the current speed. -/
theorem forwardActuatesAtCurrentSpeed : Obligations.ForwardActuatesAtCurrentSpeed :=
  ⟨rfl, decodeCommand_encode (i := .forward) rfl, fun _ => exec_movement (i := .forward) rfl rfl⟩

/-- Settles O9: a movement at the turn speed. -/
theorem leftActuatesAtTurnSpeed : Obligations.LeftActuatesAtTurnSpeed :=
  ⟨rfl, decodeCommand_encode (i := .left) rfl, fun _ => exec_movement (i := .left) rfl rfl⟩

/-- Settles O10: a movement at duty 0, with `speed` kept for a later Forward. -/
theorem stopActuatesStopWithZeroDuty : Obligations.StopActuatesStopWithZeroDuty :=
  ⟨rfl, decodeCommand_encode (i := .stop) rfl, fun _ => exec_movement (i := .stop) rfl rfl⟩

/-- Settles O11: a movement at the turn speed. -/
theorem rightActuatesAtTurnSpeed : Obligations.RightActuatesAtTurnSpeed :=
  ⟨rfl, decodeCommand_encode (i := .right) rfl, fun _ => exec_movement (i := .right) rfl rfl⟩

/-- Settles O12: a movement at the current speed. -/
theorem backwardActuatesAtCurrentSpeed : Obligations.BackwardActuatesAtCurrentSpeed :=
  ⟨rfl, decodeCommand_encode (i := .backward) rfl, fun _ => exec_movement (i := .backward) rfl rfl⟩

end Sys2Proof.Machine
end

section
/-! PROOFS. The failures (spec/60_exceptions.md rules R101 and R102): the label of the cause is ghost data, written beside
everything else a failing tick does and read by none of it. -/

namespace Sys2Proof.Machine

/-! ### What the failure path does not read -/

theorem startAttempt_withCause (g : Nat) (o : Option Cause) (s : State) :
    startAttempt g { s with cause := o } = { startAttempt g s with cause := o } := by
  unfold startAttempt; split <;> rfl

/-- Whether a failure pauses or forces a stop is decided by `idle` alone (R94). -/
theorem countFailure_withCause (o : Option Cause) (s : State) :
    countFailure { s with cause := o } = { countFailure s with cause := o } := by
  unfold countFailure
  split
  case isTrue => exact startAttempt_withCause _ o (setIdle 0 (emitAct .stop stopDuty s))
  case isFalse => exact startAttempt_withCause _ o (setIdle (s.idle.toNat + 1) s)

/-- The cause of an abort reaches the next state as its label and nowhere else (R102). -/
theorem abortAttempt_eq_withCause (c : Cause) (s : State) :
    abortAttempt c s = { countFailure { s with dec := some .fail } with cause := some c } :=
  countFailure_withCause (some c) { s with dec := some .fail }

theorem abortAttempt_relabel (c c' : Cause) (o : Option Cause) (s : State) :
    { abortAttempt c s with cause := o } = { abortAttempt c' s with cause := o } := by
  rw [abortAttempt_eq_withCause, abortAttempt_eq_withCause]

/-! ### What the ports show -/

/-- No port shows the label of the cause (R102, R112). -/
theorem ports_withCause (o : Option Cause) (s : State) : State.ports { s with cause := o } = s.ports := rfl

/-- The result ports beside a failure (R50). -/
theorem decPorts_of_fail {s : State} (h : s.dec = some .fail) : s.decOk = false ∧ s.decCode = 0#8 := by
  simp [State.decOk, State.decCode, h]

theorem abortAttempt_ports (c c' : Cause) (s : State) : (abortAttempt c s).ports = (abortAttempt c' s).ports :=
  calc (abortAttempt c s).ports
    _ = State.ports { abortAttempt c s with cause := none } := (ports_withCause none _).symm
    _ = State.ports { abortAttempt c' s with cause := none } := by rw [abortAttempt_relabel c c']
    _ = (abortAttempt c' s).ports := ports_withCause none _

/-! ### The obligation -/

/-- Settles O31: two aborts differ in the label they leave, which no port shows. -/
theorem failureCausesLookAlike : Obligations.FailureCausesLookAlike := by
  intro c c' s
  obtain ⟨hok, hcode⟩ := decPorts_of_fail (abortAttempt_dec c s)
  exact ⟨hok, hcode, abortAttempt_ports c c' s, abortAttempt_relabel c c' none s⟩

end Sys2Proof.Machine
end

section
/-! PROOFS. Frames bit by bit (spec/41_frame_decoder.md rules R68 to R70): what a write and a flip of one bit do, and the
checksum of a pair as eight complementary bits. -/

namespace Sys2Proof

/-! ### One bit of a frame -/

/-- A single 1 shifted into place. -/
theorem getLsbD_one_shiftLeft {i j : Nat} (hj : j < 32) : (1#32 <<< i).getLsbD j = decide (j = i) := by
  simp only [BitVec.getLsbD_shiftLeft, BitVec.getLsbD_one]
  by_cases h : j = i
  · subst h; simp [hj]
  · simp [h]; omega

/-- A frame write replaces its bit and no other (R68). -/
theorem getLsbD_replaceBit (f : FrameWord) (i : BitVec 5) (b : Bool) {j : Nat} (hj : j < 32) :
    (replaceBit f i b).getLsbD j = if j = i.toNat then b else f.getLsbD j := by
  cases b with
  | true =>
    simp only [replaceBit, if_true, BitVec.getLsbD_or, getLsbD_one_shiftLeft hj]
    split <;> simp [*]
  | false =>
    simp only [replaceBit, Bool.false_eq_true, if_false, BitVec.getLsbD_and, BitVec.getLsbD_not, getLsbD_one_shiftLeft hj]
    split <;> simp [*]

/-- Writing the value a bit already has changes nothing. -/
theorem replaceBit_self (f : FrameWord) (i : BitVec 5) : replaceBit f i (f.getLsbD i.toNat) = f := by
  apply BitVec.eq_of_getLsbD_eq
  intro j hj
  rw [getLsbD_replaceBit f i _ hj]
  split
  · simp [*]
  · rfl

theorem getLsbD_flip (f : FrameWord) {i j : Nat} (hj : j < 32) :
    (f ^^^ (1#32 <<< i)).getLsbD j = (f.getLsbD j ^^ decide (j = i)) := by
  rw [BitVec.getLsbD_xor, getLsbD_one_shiftLeft hj]

/-! ### The checksum of a pair -/

/-- Bytes k and k + 1 check when each bit of the one is the complement of the same bit of the other (R69). -/
theorem pairChecks_frameByte_iff (k : Nat) (f : FrameWord) :
    pairChecks (frameByte k f) (frameByte (k + 1) f) = true ↔
      ∀ i < 8, f.getLsbD (8 * (k + 1) + i) = !f.getLsbD (8 * k + i) := by
  rw [pairChecks_iff]
  constructor
  · intro h i hi
    have hbit := congrArg (·.getLsbD i) h
    simpa only [getLsbD_frameByte, BitVec.getLsbD_not, hi, decide_true, Bool.true_and] using hbit
  · intro h
    apply BitVec.eq_of_getLsbD_eq
    intro i hi
    simpa only [getLsbD_frameByte, BitVec.getLsbD_not, hi, decide_true, Bool.true_and] using h i hi

/-- A flip of a bit outside a pair does not touch its checksum. -/
theorem pairChecks_flip_outside {k j : Nat} {f : FrameWord} (hk : k + 1 < 4) (hj : j < 8 * k ∨ 8 * (k + 2) ≤ j)
    (h : pairChecks (frameByte k f) (frameByte (k + 1) f) = true) :
    pairChecks (frameByte k (f ^^^ (1#32 <<< j))) (frameByte (k + 1) (f ^^^ (1#32 <<< j))) = true := by
  rw [pairChecks_frameByte_iff] at h ⊢
  intro i hi
  rw [getLsbD_flip f (by omega), getLsbD_flip f (by omega), h i hi, decide_eq_false (by omega), decide_eq_false (by omega),
    Bool.xor_false, Bool.xor_false]

/-- A flip of a bit of either byte of a pair breaks its checksum: of the two bits at that place exactly one changes. -/
theorem pairChecks_flip_inside {k j : Nat} {f : FrameWord} (hk : k + 1 < 4) (hlo : 8 * k ≤ j) (hhi : j < 8 * (k + 2))
    (h : pairChecks (frameByte k f) (frameByte (k + 1) f) = true) :
    pairChecks (frameByte k (f ^^^ (1#32 <<< j))) (frameByte (k + 1) (f ^^^ (1#32 <<< j))) = false := by
  rw [pairChecks_frameByte_iff] at h
  rw [Bool.eq_false_iff, ne_eq, pairChecks_frameByte_iff]
  intro hflip
  have hbit := hflip (j % 8) (Nat.mod_lt _ (by omega))
  rw [getLsbD_flip f (by omega), getLsbD_flip f (by omega), h (j % 8) (Nat.mod_lt _ (by omega))] at hbit
  by_cases hfirst : j < 8 * (k + 1)
  · rw [decide_eq_false (by omega), decide_eq_true (by omega)] at hbit
    simp at hbit
  · rw [decide_eq_true (by omega), decide_eq_false (by omega)] at hbit
    simp at hbit

/-- Both pairs of a `NEC(A, C)` frame check. -/
theorem necFrame_pairs (a c : Byte) :
    pairChecks (frameByte 0 (necFrame a c)) (frameByte 1 (necFrame a c)) = true ∧
      pairChecks (frameByte 2 (necFrame a c)) (frameByte 3 (necFrame a c)) = true := by
  simp [necFrame]

/-! ### The obligations -/

/-- Settles O6: the flip breaks the pair it falls in, and a flip in the command bytes leaves the address pair good. -/
theorem singleFlippedBitIsRejected : Obligations.SingleFlippedBitIsRejected := by
  intro a c j hj
  obtain ⟨haddr, hcmd⟩ := necFrame_pairs a c
  by_cases h16 : j < 16
  · rw [if_pos h16, decodeFrame_addr_iff]
    exact pairChecks_flip_inside (k := 0) (by omega) (by omega) (by omega) haddr
  · rw [if_neg h16, decodeFrame_cmd_iff]
    exact ⟨pairChecks_flip_outside (k := 0) (by omega) (by omega) haddr,
      pairChecks_flip_inside (k := 2) (by omega) (by omega) (by omega) hcmd⟩

/-- Settles O5: modulo 256 the sum fixes the second byte. -/
theorem checksumHoldsExactlyForComplement : Obligations.ChecksumHoldsExactlyForComplement :=
  pairChecks_iff

/-- Settles O7: the write is an `or` or an `and` with the mask of its bit. -/
theorem frameWriteReplacesOneBit : Obligations.FrameWriteReplacesOneBit :=
  fun f i b _ hj => getLsbD_replaceBit f i b hj

/-- Settles O2: twelve words, each evaluated. -/
theorem writtenFrameWordsDecode : Obligations.WrittenFrameWordsDecode := by
  refine ⟨?_, ?_, ?_, ?_, ?_, ?_, ?_, ?_, ?_, ?_, ?_, ?_⟩ <;> decide

end Sys2Proof
end

section
/-! PROOFS. One tick of the block: what the dispatch writes, what stage 5 and the abort answer as whole states, and the tick
that resolves bit 31 (spec/41_frame_decoder.md rules R69 to R73, spec/42_dispatcher.md rule R79, spec/43_control_loop.md rules
R93 to R98). -/

namespace Sys2Proof.Machine

/-! ### The dispatch -/

/-- The three events a dispatch writes, in the words of the functional forms (R79). -/
theorem exec_writes {i : Instr} {s t : State} (h : exec i s = .next t) :
    t.speed = speedAfter i s.speed ∧ t.act = (actuationOf i s.speed).or s.act ∧
      t.note = some ⟨notedAction i, encode i⟩ := by
  rw [exec_eq] at h
  injection h with h
  subst h
  exact ⟨rfl, rfl, rfl⟩

/-- Only the three speed commands write the speed (R79). -/
theorem speedAfter_of_not_speed_command {i : Instr} (hreset : i ≠ .resetSpeed) (hinc : i ≠ .incSpeed)
    (hdec : i ≠ .decSpeed) (v : Duty) : speedAfter i v = v := by
  cases i with
  | resetSpeed => exact absurd rfl hreset
  | incSpeed => exact absurd rfl hinc
  | decSpeed => exact absurd rfl hdec
  | forward | left | stop | right | backward | unknown => rfl

/-- Settles O17: each of the two tests keeps its result within 16 bits. -/
theorem dispatchNeverWrapsSpeed : Obligations.DispatchNeverWrapsSpeed := by
  intro i s t h
  obtain ⟨hspeed, -, -⟩ := exec_writes h
  rw [hspeed]
  refine ⟨fun hreset hinc hdec => ?_, fun hi => ?_, fun hi => ?_, fun hi => ?_⟩
  · rw [speedAfter_of_not_speed_command hreset hinc hdec]
  · subst hi; rfl
  · subst hi
    show (increasedSpeed s.speed).toNat = _ ∨ (increasedSpeed s.speed).toNat = _ ∧ (increasedSpeed s.speed).toNat ≤ _
    by_cases hlimit : s.speed.toNat ≤ 58982
    · right; rw [toNat_increasedSpeed_of_le hlimit]; omega
    · left; rw [increasedSpeed_of_ge (by omega)]
  · subst hi
    show (decreasedSpeed s.speed).toNat = _ ∨ (decreasedSpeed s.speed).toNat + _ = _ ∧ _ ≤ (decreasedSpeed s.speed).toNat
    by_cases hstep : s.speed.toNat ≤ 6553
    · left; rw [decreasedSpeed_of_le hstep]
    · right; rw [toNat_decreasedSpeed_of_ge (by omega)]; omega

/-- Settles O18: the three fields are functions of the instruction, `speed` and `act`. -/
theorem dispatchDependsOnCodeAndSpeedOnly : Obligations.DispatchDependsOnCodeAndSpeedOnly := by
  intro i s s' t t' hspeed hact h h'
  obtain ⟨ht, hta, htn⟩ := exec_writes h
  obtain ⟨ht', hta', htn'⟩ := exec_writes h'
  exact ⟨by rw [ht, ht', hspeed], by rw [hta, hta', hspeed, hact], by rw [htn, htn']⟩

/-! ### Stage 5 -/

/-- The end of a successful attempt is the dispatch and then the start of stage 1 (R93, R98). -/
theorem finishAttempt_of_exec {f : FrameWord} {i : Instr} {s t : State}
    (h : exec i (setIdle 0 (emitDecOk (commandByte f) s)) = .next t) :
    finishAttempt f i s = .next { t with phase := .wEdge, e := 0#18, gap := 0#10 } := by
  simp only [finishAttempt, h, startAttempt_zero]

theorem checksumStage_addrCheck {f : FrameWord} (h : pairChecks (frameByte 0 f) (frameByte 1 f) = false) (s : State) :
    checksumStage f s = .next (abortAttempt .addrCheck s) := by
  simp only [checksumStage, (decodeFrame_addr_iff f).2 h]

theorem checksumStage_cmdCheck {f : FrameWord} (haddr : pairChecks (frameByte 0 f) (frameByte 1 f) = true)
    (hcmd : pairChecks (frameByte 2 f) (frameByte 3 f) = false) (s : State) :
    checksumStage f s = .next (abortAttempt .cmdCheck s) := by
  simp only [checksumStage, (decodeFrame_cmd_iff f).2 ⟨haddr, hcmd⟩]

theorem checksumStage_accepts {f : FrameWord} {i : Instr} (h : decodeFrame f = .ok i) (s : State) :
    checksumStage f s = finishAttempt f i s := by
  simp only [checksumStage, h]

/-- An accepted frame is dispatched, and the next attempt starts (R71, R73, R93, R98). -/
theorem checksumStage_dispatches {f : FrameWord} {i : Instr} (h : decodeFrame f = .ok i) (s : State) :
    ∃ t, exec i { s with idle := 0#10, dec := some (.ok (commandByte f)) } = .next t ∧
      checksumStage f s = .next { t with phase := .wEdge, e := 0#18, gap := 0#10 } := by
  obtain ⟨t, ht⟩ : ∃ t, exec i { s with idle := 0#10, dec := some (.ok (commandByte f)) } = .next t := ⟨_, exec_eq i _⟩
  exact ⟨t, ht, (checksumStage_accepts h s).trans (finishAttempt_of_exec ht)⟩

/-- Whether bytes sum to 0xFF modulo 256 is what the pair check tests (R69). -/
theorem pairChecks_true_iff (b c : Byte) : pairChecks b c = true ↔ (b.toNat + c.toNat) % 256 = 0xFF :=
  decide_eq_true_iff

theorem pairChecks_false_iff (b c : Byte) : pairChecks b c = false ↔ (b.toNat + c.toNat) % 256 ≠ 0xFF :=
  decide_eq_false_iff_not

/-- Settles O24: the two tests in their order, then the dispatch of byte 2. -/
theorem checksumStageTestsBothPairs : Obligations.ChecksumStageTestsBothPairs := by
  intro f s
  refine ⟨fun haddr => ?_, fun haddr hcmd => ?_, fun haddr hcmd => ?_⟩
  · exact checksumStage_addrCheck ((pairChecks_false_iff _ _).2 haddr) s
  · exact checksumStage_cmdCheck ((pairChecks_true_iff _ _).2 haddr) ((pairChecks_false_iff _ _).2 hcmd) s
  · exact checksumStage_dispatches ((decodeFrame_ok_iff f _).2
      ⟨(pairChecks_true_iff _ _).2 haddr, (pairChecks_true_iff _ _).2 hcmd, rfl⟩) s

/-! ### The abort -/

/-- A failure up to the 800th pauses (R94, R96). -/
theorem abortAttempt_pauses {s : State} (h : s.idle.toNat + 1 ≤ 800) (c : Cause) :
    abortAttempt c s = { s with
      dec := some .fail, cause := some c, idle := s.idle + 1#10, phase := .gap, e := 0#18, gap := 1000#10 } := by
  have hlimit : ¬ Config.profile.idleLimit < (emitDecFail c s).idle.toNat + 1 := by simpa using h
  have hidle : BitVec.ofNat 10 (s.idle.toNat + 1) = s.idle + 1#10 := by
    rw [BitVec.ofNat_add, BitVec.ofNat_toNat, BitVec.setWidth_eq]
  rw [abortAttempt, countFailure, if_neg hlimit, emitDecFail_idle, hidle.symm]
  rfl

/-- The 801st failure forces the stop (R95). -/
theorem abortAttempt_forces_stop {s : State} (h : 800 < s.idle.toNat + 1) (c : Cause) :
    abortAttempt c s = { s with
      dec := some .fail, cause := some c, act := some ⟨.stop, 0#16⟩, idle := 0#10, phase := .wEdge, e := 0#18,
      gap := 0#10 } := by
  have hlimit : Config.profile.idleLimit < (emitDecFail c s).idle.toNat + 1 := h
  rw [abortAttempt, countFailure, if_pos hlimit]
  rfl

/-- Settles O25: the two sides of the limit. -/
theorem abortCountsThenPausesOrForcesStop : Obligations.AbortCountsThenPausesOrForcesStop :=
  fun c _ => ⟨fun h => abortAttempt_pauses h c, fun h => abortAttempt_forces_stop h c⟩

/-! ### A tick of a wait, and the tick of bit 31 -/

/-- A tick with `rst` low shows the level of its pins. -/
theorem pins_eq_of_no_reset {s : State} {l : Level} (hr : s.pins.rst = false) (hl : s.pins.ir = l) :
    s.pins = ⟨false, l⟩ := by
  rw [← hr, ← hl]

/-- Settles O23: the three outcomes of a tick of a wait. -/
theorem waitTickCountsOrResolves : Obligations.WaitTickCountsOrResolves := by
  intro s w hw hr
  refine ⟨fun he hx => ?_, fun he => ?_, fun he hx => ?_⟩
  · exact step_seen hw he (pins_eq_of_no_reset hr hx)
  · exact step_timedOut hw he hr
  · have hcount : BitVec.ofNat 18 (s.e.toNat + 1) = s.e + 1#18 := by
      rw [BitVec.ofNat_add, BitVec.ofNat_toNat, BitVec.setWidth_eq]
    rw [step_waits hw he hr hx, hcount]
    rfl

/-- Settles O19: the wait of bit 31 ends, stage 4 writes the bit, and stage 5 dispatches. -/
theorem stepRunsDecodedCommand : Obligations.StepRunsDecodedCommand := by
  intro s i hpins hp hbit hmin hmax hframe
  have hw : waitOf s.phase = some ⟨.low, 2500⟩ := by rw [hp]; rfl
  have hf : frameWithBit s.e.toNat (quietAfter 1 s) = replaceBit s.frame 31#5 (decide (1200 < s.e.toNat)) := by
    rw [frameWithBit_eq, quietAfter_frame, quietAfter_bitIdx, hbit]
  have hstage : step s = checksumStage (replaceBit s.frame 31#5 (decide (1200 < s.e.toNat)))
      (setFrame (replaceBit s.frame 31#5 (decide (1200 < s.e.toNat))) (quietAfter 1 s)) :=
    calc step s
      _ = resolveWait (some s.e.toNat) (quietAfter 1 s) := step_seen hw hmax hpins
      _ = bitHighStage (some s.e.toNat) (quietAfter 1 s) := resolveWait_wBitHigh (s := quietAfter 1 s) hp _
      _ = _ := by rw [bitHighStage_last (s := quietAfter 1 s) hmin hbit, hf]
  rw [hstage]
  exact checksumStage_dispatches hframe (setFrame _ (quietAfter 1 s))

/-- The command byte of a `NEC(A, C)` frame is C (R41, R43). -/
theorem commandByte_necFrame (a c : Byte) : commandByte (necFrame a c) = c := by
  simp [commandByte, necFrame]

/-- A nominal high part lies within the wait and is classified as the bit it carries (R40, R67). -/
theorem nominalHigh_measures (b : Bool) :
    (BitVec.ofNat 18 (nominalHigh b)).toNat = nominalHigh b ∧ 200 ≤ nominalHigh b ∧ nominalHigh b ≤ 2500 ∧
      decide (1200 < nominalHigh b) = b := by
  cases b <;> decide

/-- The table decoder reads a code as the command map does (assumption log 12). -/
theorem decodeTableWord_eq {w : Nat} (hw : w < 256) :
    decodeTableWord 8 w = some (decodeCommand (BitVec.ofNat 8 w)) := by
  have hframe : decode [0x00#8, 0xFF#8, BitVec.ofNat 8 w, ~~~BitVec.ofNat 8 w] =
      .ok (decodeCommand (BitVec.ofNat 8 w)) :=
    decode_four_of_decodeFrame (decodeFrame_necFrame 0x00#8 (BitVec.ofNat 8 w))
  have hguard : 8 = Config.profile.codeW ∧ w < 2 ^ Config.profile.codeW := ⟨rfl, hw⟩
  rw [decodeTableWord, if_pos hguard]
  simp only [hframe]

/-- Settles O20: the placed state is a tick of bit 31 as `StepRunsDecodedCommand` describes it, whose bit is in the frame
already. -/
theorem placedWordRunsAtNextStep : Obligations.PlacedWordRunsAtNextStep := by
  intro s w hw
  have hplaced : s.withFetchWord 8 w = placeCommand (BitVec.ofNat 8 w) s := by
    rw [State.withFetchWord, Nat.mod_eq_of_lt (b := 2 ^ 8) hw]
  generalize hc : BitVec.ofNat 8 w = c at hplaced
  obtain ⟨hcount, hmin, hmax, hbit⟩ := nominalHigh_measures ((necFrame 0x00#8 c).getLsbD 31)
  have he : (placeCommand c s).e.toNat = nominalHigh ((necFrame 0x00#8 c).getLsbD 31) := hcount
  have hframe : replaceBit (placeCommand c s).frame 31#5 (decide (1200 < (placeCommand c s).e.toNat)) =
      necFrame 0x00#8 c := by
    rw [he, hbit]
    exact replaceBit_self (necFrame 0x00#8 c) 31#5
  have hrun := stepRunsDecodedCommand (placeCommand c s) (decodeCommand c) rfl rfl rfl (by rw [he]; exact hmin)
    (by rw [he]; exact hmax) (by rw [hframe]; exact decodeFrame_necFrame _ _)
  rw [hframe, commandByte_necFrame] at hrun
  rw [hplaced]
  exact ⟨hc ▸ decodeTableWord_eq hw, hrun⟩

/-! ### Reset and the ports -/

/-- Settles O21: `rst` takes precedence over the sequencer. -/
theorem resetTickRestoresResetState : Obligations.ResetTickRestoresResetState :=
  fun _ h => ⟨step_of_reset h, rfl, rfl, rfl⟩

/-- Settles O22: the seven registers of the reset state, read off. -/
theorem resetStateHasTheStatedValues : Obligations.ResetStateHasTheStatedValues :=
  ⟨rfl, rfl, rfl, rfl, rfl, rfl, rfl, rfl⟩

/-- Settles O30: each port group by its event field. -/
theorem payloadsAreZeroWithoutValid : Obligations.PayloadsAreZeroWithoutValid := by
  intro s
  refine ⟨fun h => ?_, fun h => ?_, fun h => ?_, fun h => ?_⟩
  · have hact : s.act = none := by simpa [State.actValid] using h
    simp [State.actOp, State.actDuty, hact]
  · have hnote : s.note = none := by simpa [State.noteValid] using h
    simp [State.noteAction, State.noteCode, hnote]
  · have hdec : s.dec = none := by simpa [State.decValid] using h
    simp [State.decOk, hdec]
  · cases hdec : s.dec with
    | none => simp [State.decCode, hdec]
    | some d =>
      cases d with
      | ok c => simp [State.decOk, hdec] at h
      | fail => simp [State.decCode, hdec]

end Sys2Proof.Machine
end

section
/-! PROOFS. What one tick can do, inverted once: reset, a tick of the pause, or a tick of a wait, which counts on, enters the
next wait, aborts, or finishes the attempt with a dispatch. The facts about every tick (spec/10_state.md rules R13 to R18 and
R27, spec/42_dispatcher.md rules R79 and R90, spec/43_control_loop.md rules R93 to R99) are read off from that. -/

namespace Sys2Proof.Machine

/-! ### The state a successful attempt ends in -/

/-- The registers and events after an attempt that read the code `c` (R71, R93, R79, R98), in the words of the functional
forms. -/
def finished (c : Byte) (s : State) : State :=
  { s with
    phase := .wEdge
    e := 0#18
    gap := 0#10
    idle := 0#10
    speed := speedAfter (decodeCommand c) s.speed
    dec := some (.ok c)
    act := actuationOf (decodeCommand c) s.speed
    note := some ⟨notedAction (decodeCommand c), c⟩ }

theorem finishAttempt_eq_finished {f : FrameWord} {i : Instr} {s : State} (hf : decodeFrame f = .ok i)
    (hact : s.act = none) : finishAttempt f i s = .next (finished (commandByte f) s) := by
  obtain ⟨-, -, rfl⟩ := (decodeFrame_ok_iff f i).1 hf
  rw [finishAttempt_of_exec (exec_eq_reference _ (setIdle 0 (emitDecOk (commandByte f) s)) hact)]
  obtain ⟨-, hcode⟩ := decodeCommand_spelled (commandByte f)
  rw [hcode]
  rfl

/-! ### The inversion -/

/-- Everything a tick can do from `s`, each case with the next state. -/
inductive TickOutcome (s : State) : State → Prop where
  | resets (hr : s.pins.rst = true) : TickOutcome s (resetRegisters (advancePins s))
  | gapCounts (hp : s.phase = .gap) (h0 : s.gap ≠ 0#10) (h1 : s.gap ≠ 1#10) :
      TickOutcome s (setGap (s.gap - 1#10) (quietAfter 1 s))
  | gapEnds (hp : s.phase = .gap) : TickOutcome s (startAttempt 0 (quietAfter 1 s))
  | waits (w : Wait) (hw : waitOf s.phase = some w) (hne : s.e.toNat ≠ w.timeout + 1) (hlt : s.e.toNat + 1 < 2 ^ 18) :
      TickOutcome s (setE (BitVec.ofNat 18 (s.e.toNat + 1)) (quietAfter 1 s))
  | enters (w : Wait) (hw : waitOf s.phase = some w) (p : Phase) (b : BitVec 5) (f : FrameWord) (hgap : p ≠ .gap)
      (hedge : p ≠ .wEdge) : TickOutcome s (enterWait p (setBitIdx b (setFrame f (quietAfter 1 s))))
  | aborts (w : Wait) (hw : waitOf s.phase = some w) (c : Cause) (f : FrameWord) :
      TickOutcome s (abortAttempt c (setFrame f (quietAfter 1 s)))
  | finishes (w : Wait) (hw : waitOf s.phase = some w) (c : Byte) (f : FrameWord) :
      TickOutcome s (finished c (setFrame f (quietAfter 1 s)))

/-- A wait that resolves always answers: it enters the next wait, aborts, or finishes the attempt. -/
theorem resolveWait_outcome {s : State} {w : Wait} (hw : waitOf s.phase = some w) (d : Option Nat) :
    ∃ t, resolveWait d (quietAfter 1 s) = .next t ∧ TickOutcome s t := by
  rcases resolveWait_answers (s := quietAfter 1 s) hw d with ⟨p, b, f, hgap, hedge, h⟩ | ⟨c, f, h⟩ | ⟨f, i, hf, h⟩
  · exact ⟨_, h, .enters w hw p b f hgap hedge⟩
  · exact ⟨_, h, .aborts w hw c f⟩
  · exact ⟨_, h.trans (finishAttempt_eq_finished hf rfl), .finishes w hw _ f⟩

/-- A tick of GAP by the ticks left, on any line level (R96). -/
theorem step_gap {s : State} (hr : s.pins.rst = false) (hp : s.phase = .gap) :
    step s = if s.gap = 1#10 then .next (startAttempt 0 (quietAfter 1 s))
      else if s.gap = 0#10 then .fault .gapRange
      else .next (setGap (s.gap - 1#10) (quietAfter 1 s)) :=
  (step_of_no_reset hr).trans (sequencerTick_gap (s := quietAfter 1 s) hp _)

theorem step_gap_last {s : State} (hr : s.pins.rst = false) (hp : s.phase = .gap) (h : s.gap = 1#10) :
    step s = .next (startAttempt 0 (quietAfter 1 s)) := by
  rw [step_gap hr hp, if_pos h]

theorem step_gap_counts {s : State} (hr : s.pins.rst = false) (hp : s.phase = .gap) (h0 : s.gap ≠ 0#10)
    (h1 : s.gap ≠ 1#10) : step s = .next (setGap (s.gap - 1#10) (quietAfter 1 s)) := by
  rw [step_gap hr hp, if_neg h1, if_neg h0]

theorem step_outcome {s t : State} (h : step s = .next t) : TickOutcome s t := by
  rcases step_cases h with ⟨hr, rfl⟩ | ⟨hr, hp, -⟩ | ⟨w, hw, -, ⟨hne, -, hlt, rfl⟩ | ⟨-, -, hres⟩ | ⟨-, hres⟩⟩
  · exact .resets hr
  · rw [step_gap hr hp] at h
    split at h
    · injection h with h
      exact h ▸ .gapEnds hp
    · split at h
      · cases h
      · injection h with h
        exact h ▸ .gapCounts hp ‹_› ‹_›
  · exact .waits w hw hne hlt
  all_goals
    obtain ⟨u, hu, hout⟩ := resolveWait_outcome hw _
    injection hu.symm.trans hres with hut
    exact hut ▸ hout

/-! ### The events of a tick -/

/-- The tick just done raised no event: no valid bit is 1 (R26, R27). -/
def quiet (s : State) : Prop :=
  s.dec = none ∧ s.act = none ∧ s.note = none

/-- The events of a tick: none, with the speed as it was or reset; those of an abort; those of a finished attempt. -/
theorem step_events {s t : State} (h : step s = .next t) :
    (quiet t ∧ (t.speed = s.speed ∨ s.pins.rst = true ∧ t.speed = 32768#16)) ∨
    (∃ c f, t = abortAttempt c (setFrame f (quietAfter 1 s))) ∨
    (∃ c f, t = finished c (setFrame f (quietAfter 1 s))) := by
  cases step_outcome h with
  | resets hr => exact .inl ⟨⟨rfl, rfl, rfl⟩, .inr ⟨hr, rfl⟩⟩
  | gapCounts | gapEnds | waits | enters => exact .inl ⟨⟨rfl, rfl, rfl⟩, .inl rfl⟩
  | aborts _ _ c f => exact .inr (.inl ⟨c, f, rfl⟩)
  | finishes _ _ c f => exact .inr (.inr ⟨c, f, rfl⟩)

/-- What an abort leaves in the registers it writes and in `act`, on either side of the limit. -/
theorem abortAttempt_cases (c : Cause) (s : State) :
    (s.idle.toNat + 1 ≤ 800 ∧ (abortAttempt c s).act = s.act ∧ (abortAttempt c s).idle = s.idle + 1#10 ∧
      (abortAttempt c s).phase = .gap ∧ (abortAttempt c s).e = 0#18 ∧ (abortAttempt c s).gap = 1000#10) ∨
    (800 < s.idle.toNat + 1 ∧ (abortAttempt c s).act = some ⟨.stop, 0#16⟩ ∧ (abortAttempt c s).idle = 0#10 ∧
      (abortAttempt c s).phase = .wEdge ∧ (abortAttempt c s).e = 0#18 ∧ (abortAttempt c s).gap = 0#10) := by
  by_cases h : s.idle.toNat + 1 ≤ 800
  · rw [abortAttempt_pauses h]
    exact .inl ⟨h, rfl, rfl, rfl, rfl, rfl⟩
  · rw [abortAttempt_forces_stop (Nat.lt_of_not_le h)]
    exact .inr ⟨Nat.lt_of_not_le h, rfl, rfl, rfl, rfl, rfl⟩

/-- Settles O26: of the three kinds of tick only an abort reports a failure. -/
theorem failureEndsTheAttemptAtOnce : Obligations.FailureEndsTheAttemptAtOnce := by
  intro s t h hfail
  rcases step_events h with ⟨⟨hdec, -, -⟩, -⟩ | ⟨c, f, rfl⟩ | ⟨c, f, rfl⟩
  · rw [hdec] at hfail; cases hfail
  · refine ⟨abortAttempt_speed c _, abortAttempt_note c _, ?_⟩
    rcases abortAttempt_cases c (setFrame f (quietAfter 1 s)) with ⟨-, hact, -, hp, he, -⟩ | ⟨hlimit, hact, -, hp, he, -⟩
    · exact ⟨.inl hact, .inr hp, he⟩
    · exact ⟨.inr ⟨hact, hlimit⟩, .inl hp, he⟩
  · cases hfail

/-- Settles O27: of the three kinds of tick only a finished attempt reports a success. -/
theorem successResetsIdleAndDispatches : Obligations.SuccessResetsIdleAndDispatches := by
  intro s t c h hok
  rcases step_events h with ⟨⟨hdec, -, -⟩, -⟩ | ⟨c', f, rfl⟩ | ⟨c', f, rfl⟩
  · rw [hdec] at hok; cases hok
  · rw [abortAttempt_dec] at hok; cases hok
  · obtain rfl : c' = c := by injection hok with hok; injection hok
    obtain ⟨-, hcode⟩ := decodeCommand_spelled c'
    refine ⟨rfl, rfl, rfl, rfl, _, exec_eq_reference (decodeCommand c') _ rfl, rfl, rfl, ?_⟩
    rw [hcode]
    rfl

/-- A dispatch that changes the speed is that of a speed command, which does not actuate (R79, R85 to R87). -/
theorem speed_command_of_speedAfter_ne {i : Instr} {v : Duty} (h : speedAfter i v ≠ v) :
    (encode i = 0x09#8 ∨ encode i = 0x15#8 ∨ encode i = 0x07#8) ∧ actuationOf i v = none := by
  cases i with
  | resetSpeed => exact ⟨.inl rfl, rfl⟩
  | incSpeed => exact ⟨.inr (.inl rfl), rfl⟩
  | decSpeed => exact ⟨.inr (.inr rfl), rfl⟩
  | forward | left | stop | right | backward | unknown => exact absurd rfl h

/-- A dispatch that actuates is that of a movement command, which leaves the speed alone (R79 to R84). -/
theorem movement_of_actuationOf {i : Instr} {v : Duty} {a : ActEvent} (h : actuationOf i v = some a) :
    (encode i = 0x18#8 ∨ encode i = 0x08#8 ∨ encode i = 0x1C#8 ∨ encode i = 0x5A#8 ∨ encode i = 0x52#8) ∧
      speedAfter i v = v := by
  cases i with
  | forward => exact ⟨.inl rfl, rfl⟩
  | left => exact ⟨.inr (.inl rfl), rfl⟩
  | stop => exact ⟨.inr (.inr (.inl rfl)), rfl⟩
  | right => exact ⟨.inr (.inr (.inr (.inl rfl))), rfl⟩
  | backward => exact ⟨.inr (.inr (.inr (.inr rfl))), rfl⟩
  | resetSpeed | incSpeed | decSpeed | unknown => cases h

/-- Settles O28: without reset only a finished attempt writes the speed. -/
theorem speedChangesOnlyBySpeedCommands : Obligations.SpeedChangesOnlyBySpeedCommands := by
  intro s t hr h hne
  rcases step_events h with ⟨-, hspeed | ⟨hreset, -⟩⟩ | ⟨c, f, rfl⟩ | ⟨c, f, rfl⟩
  · exact absurd hspeed hne
  · rw [hr] at hreset; cases hreset
  · exact absurd (abortAttempt_speed c _) hne
  · obtain ⟨hcode, hact⟩ := speed_command_of_speedAfter_ne hne
    obtain ⟨-, hc⟩ := decodeCommand_spelled c
    rw [hc] at hcode
    exact ⟨c, rfl, hcode, hact⟩

/-- Settles O29: an abort actuates past the limit only, a finished attempt with a movement command only. -/
theorem actuationsComeFromMovementsOrForcedStop : Obligations.ActuationsComeFromMovementsOrForcedStop := by
  intro s t a h ha
  rcases step_events h with ⟨⟨-, hact, -⟩, -⟩ | ⟨c, f, rfl⟩ | ⟨c, f, rfl⟩
  · rw [hact] at ha; cases ha
  · rcases abortAttempt_cases c (setFrame f (quietAfter 1 s)) with ⟨-, hact, -⟩ | ⟨hlimit, hact, -⟩
    · rw [hact] at ha; cases ha
    · rw [hact] at ha
      injection ha with ha
      exact .inl ⟨abortAttempt_dec c _, ha.symm, hlimit⟩
  · obtain ⟨hcode, hspeed⟩ := movement_of_actuationOf ha
    obtain ⟨-, hc⟩ := decodeCommand_spelled c
    rw [hc] at hcode
    exact .inr ⟨c, rfl, hcode, hspeed⟩

/-! ### The invariant -/

/-- The abort is a legal combination of events, whatever its cause. -/
theorem outputsLegal_abortAttempt {c : Cause} {s : State} (hact : s.act = none) (hnote : s.note = none) :
    outputsLegal (abortAttempt c s) = true := by
  rcases abortAttempt_cases c s with ⟨-, hact', -⟩ | ⟨-, hact', -⟩
  · simp [outputsLegal, hact', hact, hnote]
  · simp [outputsLegal, hact', hnote]

theorem outputsLegal_finished {c : Byte} {s : State} (hcause : s.cause = none) : outputsLegal (finished c s) = true := by
  simp [outputsLegal, finished, hcause]

theorem countersInRange_edge {s : State} (hp : s.phase = .wEdge) (he : s.e = 0#18) (hg : s.gap = 0#10) :
    countersInRange s = true := by
  rw [countersInRange_wait (w := ⟨.low, 150000⟩) (by rw [hp]; rfl), he]
  exact ⟨by simp, .inl hp, hg⟩

/-- Settles O38: by the cases of the inversion, each of which writes its counters within their ranges. -/
theorem everyTickKeepsTheInvariant : Obligations.EveryTickKeepsTheInvariant := by
  intro s t hinv h
  obtain ⟨hc, hi, -⟩ := (inv_iff s).1 hinv
  rw [inv_iff]
  cases step_outcome h with
  | resets hr => exact ⟨countersInRange_edge rfl rfl rfl, rfl, rfl⟩
  | gapCounts hp h0 h1 =>
    obtain ⟨he, hlo, hhi⟩ := (countersInRange_gap hp).1 hc
    refine ⟨(countersInRange_gap (s := setGap _ (quietAfter 1 s)) hp).2 ⟨he, ?_⟩, hi, rfl⟩
    show 1 ≤ (s.gap - 1#10).toNat ∧ (s.gap - 1#10).toNat ≤ 1000
    have hone : s.gap.toNat ≠ 1 := fun h => h1 (BitVec.eq_of_toNat_eq h)
    rw [BitVec.toNat_sub, BitVec.toNat_ofNat]
    omega
  | gapEnds hp => exact ⟨countersInRange_edge rfl rfl rfl, hi, rfl⟩
  | waits w hw hne hlt =>
    obtain ⟨hle, -, hg⟩ := (countersInRange_wait hw).1 hc
    refine ⟨(countersInRange_wait (s := setE _ (quietAfter 1 s)) hw).2 ?_, hi, rfl⟩
    have hcount : (BitVec.ofNat 18 (s.e.toNat + 1)).toNat = s.e.toNat + 1 := by
      rw [BitVec.toNat_ofNat, Nat.mod_eq_of_lt hlt]
    exact ⟨by rw [setE_e, hcount]; omega, .inr (by rw [setE_e, hcount]; omega), hg⟩
  | enters w hw p b f hgap hedge =>
    obtain ⟨-, -, hg⟩ := (countersInRange_wait hw).1 hc
    obtain ⟨w', hw'⟩ : ∃ w', waitOf p = some w' := by
      cases p with
      | gap => exact absurd rfl hgap
      | wEdge | wLead | wSpace | wBitLow | wBitHigh => exact ⟨_, rfl⟩
    refine ⟨(countersInRange_wait (w := w') hw').2 ⟨?_, .inr (by rw [enterWait_e]; decide), hg⟩, hi, rfl⟩
    rw [enterWait_e, show (1#18).toNat = 1 from rfl]
    omega
  | aborts w hw c f =>
    rcases abortAttempt_cases c (setFrame f (quietAfter 1 s)) with
      ⟨hlimit, -, hidle, hp, he, hg⟩ | ⟨-, -, hidle, hp, he, hg⟩
    · refine ⟨(countersInRange_gap hp).2 ⟨he, by rw [hg]; decide⟩, ?_, outputsLegal_abortAttempt rfl rfl⟩
      have hle : s.idle.toNat + 1 ≤ 800 := hlimit
      rw [idleInRange_iff, hidle]
      show (s.idle + 1#10).toNat ≤ 800
      rw [BitVec.toNat_add, BitVec.toNat_ofNat]
      omega
    · exact ⟨countersInRange_edge hp he hg, by rw [idleInRange_iff, hidle]; decide, outputsLegal_abortAttempt rfl rfl⟩
  | finishes w hw c f => exact ⟨countersInRange_edge rfl rfl rfl, rfl, outputsLegal_finished rfl⟩

/-- Under the invariant a tick answers a next state: no counter leaves its register. -/
theorem step_answers {s : State} (hinv : inv s = true) : ∃ t, step s = .next t := by
  obtain ⟨hc, -, -⟩ := (inv_iff s).1 hinv
  cases hr : s.pins.rst with
  | true => exact ⟨_, step_of_reset hr⟩
  | false =>
    cases hw : waitOf s.phase with
    | none =>
      have hp : s.phase = .gap := by
        cases hp : s.phase with
        | gap => rfl
        | wEdge | wLead | wSpace | wBitLow | wBitHigh => rw [hp] at hw; cases hw
      obtain ⟨-, hlo, -⟩ := (countersInRange_gap hp).1 hc
      have h0 : s.gap ≠ 0#10 := fun h => by rw [h] at hlo; exact absurd hlo (by decide)
      by_cases h1 : s.gap = 1#10
      · exact ⟨_, step_gap_last hr hp h1⟩
      · exact ⟨_, step_gap_counts hr hp h0 h1⟩
    | some w =>
      obtain ⟨hle, -, -⟩ := (countersInRange_wait hw).1 hc
      by_cases hto : s.e.toNat = w.timeout + 1
      · obtain ⟨t, ht, -⟩ := resolveWait_outcome hw none
        exact ⟨t, (step_timedOut hw hto hr).trans ht⟩
      · have he : s.e.toNat ≤ w.timeout := by omega
        by_cases hx : s.pins.ir = w.target
        · obtain ⟨t, ht, -⟩ := resolveWait_outcome hw (some s.e.toNat)
          exact ⟨t, (step_seen hw he (pins_eq_of_no_reset hr hx)).trans ht⟩
        · exact ⟨_, step_waits hw he hr hx⟩

/-- Settles O40: by induction on the number of ticks, each of which answers and keeps the invariant. -/
theorem noRunStopsUnderTheInvariant : Obligations.NoRunStopsUnderTheInvariant := by
  intro s hinv n
  induction n generalizing s with
  | zero => exact ⟨s, runsTo_zero s, hinv⟩
  | succ n ih =>
    obtain ⟨t, hstep⟩ := step_answers hinv
    obtain ⟨u, hrun, hu⟩ := ih t (everyTickKeepsTheInvariant s t hinv hstep)
    exact ⟨u, runsTo_succ hstep hrun, hu⟩

/-- Settles O39: 32768 is 3 + 6553 * 5. -/
theorem resetStateMeetsTheInvariant : Obligations.ResetStateMeetsTheInvariant :=
  ⟨rfl, 5, by decide, rfl⟩

/-! ### The reachable speeds -/

/-- A dispatch keeps the speed among the eleven values: the step is 6553, and the tests hold it at 3 and at 65533 (R90). -/
theorem speedAfter_reachable (i : Instr) {v : Duty} {k : Nat} (hk : k ≤ 10) (hv : v.toNat = 3 + 6553 * k) :
    ∃ k' ≤ 10, (speedAfter i v).toNat = 3 + 6553 * k' := by
  cases i with
  | resetSpeed => exact ⟨5, by decide, rfl⟩
  | incSpeed =>
    show ∃ k' ≤ 10, (increasedSpeed v).toNat = _
    by_cases hle : v.toNat ≤ 58982
    · exact ⟨k + 1, by omega, by rw [toNat_increasedSpeed_of_le hle]; omega⟩
    · exact ⟨k, hk, by rw [increasedSpeed_of_ge (by omega), hv]⟩
  | decSpeed =>
    show ∃ k' ≤ 10, (decreasedSpeed v).toNat = _
    by_cases hle : v.toNat ≤ 6553
    · exact ⟨k, hk, by rw [decreasedSpeed_of_le hle, hv]⟩
    · exact ⟨k - 1, by omega, by rw [toNat_decreasedSpeed_of_ge (by omega)]; omega⟩
  | forward | left | stop | right | backward | unknown => exact ⟨k, hk, hv⟩

/-- Settles O41: only reset and a dispatch write the speed. -/
theorem everyTickKeepsSpeedReachable : Obligations.EveryTickKeepsSpeedReachable := by
  rintro s t ⟨k, hk, hv⟩ h
  rcases step_events h with ⟨-, hspeed | ⟨-, hspeed⟩⟩ | ⟨c, f, rfl⟩ | ⟨c, f, rfl⟩
  · exact ⟨k, hk, by rw [hspeed, hv]⟩
  · exact ⟨5, by decide, by rw [hspeed]; rfl⟩
  · exact ⟨k, hk, by rw [abortAttempt_speed]; exact hv⟩
  · exact speedAfter_reachable (decodeCommand c) hk hv

end Sys2Proof.Machine
end

section
/-! PROOFS. Runs of several ticks: the trace a run leaves, runs without an event, the pause (spec/43_control_loop.md rule R96)
and the functional Level-Wait (spec/40_level_wait.md rule R54). -/

namespace Sys2Proof.Machine

/-! ### The trace of a run -/

theorem step_trace {s t : State} (h : step s = .next t) : t.inputs = dropTick s.inputs ∧ t.clock = s.clock + 1 := by
  cases step_outcome h with
  | resets | gapCounts | gapEnds | waits | enters | finishes => exact ⟨rfl, rfl⟩
  | aborts _ _ c f => exact ⟨abortAttempt_inputs c _, abortAttempt_clock c _⟩

theorem runsTo_trace {n : Nat} {s t : State} (h : RunsTo n s t) :
    t.inputs = dropTicks n s.inputs ∧ t.clock = s.clock + n := by
  induction n generalizing s with
  | zero =>
    obtain rfl := runsTo_unique h (runsTo_zero s)
    exact ⟨rfl, rfl⟩
  | succ n ih =>
    obtain ⟨u, hstep, hrun⟩ := runsTo_succ_inv h
    obtain ⟨hi, hc⟩ := step_trace hstep
    obtain ⟨hi', hc'⟩ := ih hrun
    exact ⟨by rw [hi', hi]; rfl, by rw [hc', hc]; omega⟩

/-- The pins ahead of the end of a run are those of its start, `n` ticks later, whatever happened in it. -/
theorem pinsAt_of_runsTo {n : Nat} {s t : State} (h : RunsTo n s t) (k : Nat) : t.pinsAt k = s.pinsAt (n + k) :=
  pinsAt_of_trace (runsTo_trace h).1 (runsTo_trace h).2 k

theorem noResetFor_of_runsTo {m n : Nat} {s t : State} (h : RunsTo m s t) (hr : noResetFor (m + n) s) : noResetFor n t :=
  fun j hj => by rw [pinsAt_of_runsTo h]; exact hr (m + j) (by omega)

theorem noResetFor_mono {m n : Nat} {s : State} (hmn : m ≤ n) (hr : noResetFor n s) : noResetFor m s :=
  fun j hj => hr j (by omega)

theorem runsTo_split {m n : Nat} {s u : State} (h : RunsTo (m + n) s u) : ∃ t, RunsTo m s t ∧ RunsTo n t u := by
  induction m generalizing s with
  | zero => exact ⟨s, runsTo_zero s, by simpa using h⟩
  | succ m ih =>
    rw [Nat.succ_add] at h
    obtain ⟨r, hstep, hrun⟩ := runsTo_succ_inv h
    obtain ⟨t, hm, hn⟩ := ih hrun
    exact ⟨t, runsTo_succ hstep hm, hn⟩

/-- The rest of a run, from a state known to be on its way. -/
theorem runsTo_rest {m n : Nat} {s t u : State} (hm : RunsTo m s t) (h : RunsTo (m + n) s u) : RunsTo n t u := by
  obtain ⟨t', hm', hn⟩ := runsTo_split h
  exact runsTo_unique hm hm' ▸ hn

/-! ### Runs through states of one kind -/

/-- `n` ticks lead from `s` to `t`, and the state after each of them is one of `P`. -/
def RunsThrough (P : State → Prop) (n : Nat) (s t : State) : Prop :=
  RunsTo n s t ∧ ∀ k v, 1 ≤ k → k ≤ n → RunsTo k s v → P v

section RunsThrough

variable {P : State → Prop}

theorem runsThrough_zero (s : State) : RunsThrough P 0 s s :=
  ⟨runsTo_zero s, fun k _ h h' => by omega⟩

theorem runsThrough_add {m n : Nat} {s t u : State} (h : RunsThrough P m s t) (h' : RunsThrough P n t u) :
    RunsThrough P (m + n) s u := by
  obtain ⟨hrun, hP⟩ := h
  obtain ⟨hrun', hP'⟩ := h'
  refine ⟨runsTo_add hrun hrun', fun k v h1 hk hv => ?_⟩
  by_cases hkm : k ≤ m
  · exact hP k v h1 hkm hv
  · obtain ⟨j, rfl⟩ := Nat.exists_eq_add_of_lt (Nat.lt_of_not_le hkm)
    exact hP' (j + 1) v (by omega) (by omega) (runsTo_rest hrun hv)

theorem runsThrough_one {s t : State} (h : step s = .next t) (ht : P t) : RunsThrough P 1 s t :=
  ⟨runsTo_one h, fun k v h1 hk hv => by
    obtain rfl : k = 1 := by omega
    exact runsTo_unique (runsTo_one h) hv ▸ ht⟩

end RunsThrough

/-- A run without an event. -/
abbrev quietRun : Nat → State → State → Prop :=
  RunsThrough quiet

theorem quiet_waited {k : Nat} (h : 1 ≤ k) (s : State) : quiet (waited k s) := by
  rw [waited_pos (by omega)]
  exact ⟨rfl, rfl, rfl⟩

/-- The ticks of a wait raise no event. -/
theorem quietRun_waited {s : State} {w : Wait} (hw : waitOf s.phase = some w) {k : Nat} (he : s.e.toNat + k ≤ w.timeout + 1)
    (hl : ∀ j < k, (s.pinsAt j).rst = false ∧ (s.pinsAt j).ir ≠ w.target) : quietRun k s (waited k s) :=
  ⟨runsTo_waited hw he hl, fun j _ h1 hj hv =>
    runsTo_unique (runsTo_waited (k := j) hw (by omega) fun i hi => hl i (by omega)) hv ▸ quiet_waited h1 s⟩

/-! ### The pause -/

theorem quietAfter_quietAfter (m n : Nat) (s : State) : quietAfter n (quietAfter m s) = quietAfter (m + n) s := by
  rw [quietAfter, quietAfter, quietAfter, ← advanceBy_advanceBy]
  rfl

/-- The state inside a pause after `k` ticks that did not end it. -/
def paused (k : Nat) (s : State) : State :=
  if k = 0 then s else setGap (s.gap - BitVec.ofNat 10 k) (quietAfter k s)

@[simp] theorem paused_phase (k : Nat) (s : State) : (paused k s).phase = s.phase := by
  unfold paused; split <;> rfl

theorem paused_pos {k : Nat} (h : 1 ≤ k) (s : State) :
    paused k s = setGap (s.gap - BitVec.ofNat 10 k) (quietAfter k s) :=
  if_neg (by omega)

theorem paused_gap (k : Nat) (s : State) : (paused k s).gap = s.gap - BitVec.ofNat 10 k := by
  unfold paused
  split
  · simp [*]
  · rfl

theorem toNat_paused_gap {k : Nat} {s : State} (hk : k ≤ s.gap.toNat) : (paused k s).gap.toNat = s.gap.toNat - k := by
  have hlt := s.gap.isLt
  rw [paused_gap, BitVec.toNat_sub, BitVec.toNat_ofNat]
  omega

theorem quietAfter_paused (k : Nat) (s : State) :
    ∃ g, quietAfter 1 (paused k s) = setGap g (quietAfter (k + 1) s) := by
  unfold paused
  split
  · rename_i h; subst h; exact ⟨s.gap, rfl⟩
  · exact ⟨s.gap - BitVec.ofNat 10 k, by rw [← quietAfter_quietAfter k 1 s]; rfl⟩

/-- A pause goes on, tick by tick, while more than one tick of it is left (R96). -/
theorem runsTo_paused {s : State} (hp : s.phase = .gap) {k : Nat} (hk : k < s.gap.toNat) (hr : noResetFor k s) :
    RunsTo k s (paused k s) := by
  induction k with
  | zero => exact runsTo_zero s
  | succ k ih =>
    have hrun := ih (by omega) (noResetFor_mono (by omega) hr)
    have hlow : (paused k s).pins.rst = false := by
      rw [← pinsAt_zero, pinsAt_of_runsTo hrun]
      exact hr k (by omega)
    have hleft : (paused k s).gap.toNat = s.gap.toNat - k := toNat_paused_gap (by omega)
    have h0 : (paused k s).gap ≠ 0#10 := fun h => by rw [h, BitVec.toNat_ofNat] at hleft; omega
    have h1 : (paused k s).gap ≠ 1#10 := fun h => by rw [h, BitVec.toNat_ofNat] at hleft; omega
    have hnext : (paused k s).gap - 1#10 = s.gap - BitVec.ofNat 10 (k + 1) := by
      rw [paused_gap, BitVec.ofNat_add, BitVec.sub_sub]
    obtain ⟨g, hquiet⟩ := quietAfter_paused k s
    refine runsTo_last hrun ((step_gap_counts hlow (by simpa using hp) h0 h1).trans ?_)
    rw [hnext, hquiet, paused_pos (by omega)]
    rfl

/-- A whole pause: `gap` ticks without an event, and then the start of stage 1 (R96, R98). -/
theorem quietRun_pause {s : State} (hp : s.phase = .gap) (hpos : 1 ≤ s.gap.toNat) (hr : noResetFor s.gap.toNat s) :
    quietRun s.gap.toNat s (startAttempt 0 (quietAfter s.gap.toNat s)) := by
  obtain ⟨m, hm⟩ : ∃ m, s.gap.toNat = m + 1 := ⟨s.gap.toNat - 1, by omega⟩
  rw [hm] at hr ⊢
  have hrun : quietRun m s (paused m s) :=
    ⟨runsTo_paused hp (by omega) (noResetFor_mono (by omega) hr), fun k v h1 hk hv => by
      rw [← runsTo_unique (runsTo_paused hp (by omega) (noResetFor_mono (by omega) hr)) hv, paused_pos h1]
      exact ⟨rfl, rfl, rfl⟩⟩
  have hlow : (paused m s).pins.rst = false := by
    rw [← pinsAt_zero, pinsAt_of_runsTo hrun.1]
    exact hr m (by omega)
  have hlast : (paused m s).gap = 1#10 :=
    BitVec.eq_of_toNat_eq (by rw [toNat_paused_gap (by omega), BitVec.toNat_ofNat]; omega)
  have hstep := step_gap_last hlow (by simpa using hp) hlast
  obtain ⟨g, hquiet⟩ := quietAfter_paused m s
  rw [hquiet] at hstep
  exact runsThrough_add hrun (runsThrough_one hstep ⟨rfl, rfl, rfl⟩)

/-- Settles O37: the ticks inside the pause, and the pause as a whole. -/
theorem gapLastsItsTicks : Obligations.GapLastsItsTicks := by
  intro s hp hpos hr
  refine ⟨fun k h1 hk => ?_, (quietRun_pause hp hpos hr).1⟩
  have hrun := runsTo_paused hp hk (noResetFor_mono (by omega) hr)
  rw [paused_pos h1] at hrun
  exact hrun

/-! ### The functional Level-Wait -/

section LevelWait

variable {target : Level} {x : Nat → Level} {p : Nat}

/-- The loop returns at the first elapsed value at which the target is sampled (R54). -/
theorem levelWaitFrom_seen {left e k : Nat} (hk : k < left) (hx : x (p + (e + k)) = target)
    (hbefore : ∀ j < k, x (p + (e + j)) ≠ target) :
    levelWaitFrom target x p left e = (some (e + k), p + (e + k)) := by
  induction left generalizing e k with
  | zero => omega
  | succ left ih =>
    cases k with
    | zero => exact if_pos hx
    | succ k =>
      have hfirst : x (p + e) ≠ target := hbefore 0 (by omega)
      have hshift : ∀ j, e + 1 + j = e + (j + 1) := by omega
      rw [levelWaitFrom, if_neg hfirst, ← hshift k]
      exact ih (by omega) (by rw [hshift]; exact hx) fun j hj => by rw [hshift]; exact hbefore (j + 1) (by omega)

/-- The loop fails past its last elapsed value where the target is sampled at none of them (R54). -/
theorem levelWaitFrom_never {left e : Nat} (hx : ∀ j < left, x (p + (e + j)) ≠ target) :
    levelWaitFrom target x p left e = (none, p + (e + left)) := by
  induction left generalizing e with
  | zero => rfl
  | succ left ih =>
    have hfirst : x (p + e) ≠ target := hx 0 (by omega)
    have hshift : ∀ j, e + 1 + j = e + (j + 1) := by omega
    rw [levelWaitFrom, if_neg hfirst, ← hshift left]
    exact ih fun j hj => by rw [hshift]; exact hx (j + 1) (by omega)

end LevelWait

theorem levelWait_seen {w : Wait} {x : Nat → Level} {p d : Nat} (hd : d ≤ w.timeout) (hx : x (p + d) = w.target)
    (hbefore : ∀ j < d, x (p + j) ≠ w.target) : levelWait w x p = (some d, p + d) := by
  have h := levelWaitFrom_seen (target := w.target) (x := x) (p := p) (left := w.timeout + 1) (e := 0) (k := d) (by omega)
    (by rw [Nat.zero_add]; exact hx) fun j hj => by rw [Nat.zero_add]; exact hbefore j hj
  rwa [Nat.zero_add] at h

theorem levelWait_timedOut {w : Wait} {x : Nat → Level} {p : Nat} (hx : ∀ d ≤ w.timeout, x (p + d) ≠ w.target) :
    levelWait w x p = (none, p + (w.timeout + 1)) := by
  have h := levelWaitFrom_never (target := w.target) (x := x) (p := p) (left := w.timeout + 1) (e := 0)
    fun j hj => by rw [Nat.zero_add]; exact hx j (by omega)
  rwa [Nat.zero_add] at h

/-- Settles O42: the loop from elapsed 0, with the timeout itself still allowed. -/
theorem levelWaitResultIsTheLeastElapsed : Obligations.LevelWaitResultIsTheLeastElapsed :=
  fun _ _ _ => ⟨fun _ he hx hbefore => levelWait_seen he hx hbefore, levelWait_timedOut⟩

/-- Either the target is sampled within the timeout, and first at `d`, or it is not (R54). -/
theorem levelWait_cases (w : Wait) (x : Nat → Level) (p : Nat) :
    (∃ d ≤ w.timeout, x (p + d) = w.target ∧ (∀ j < d, x (p + j) ≠ w.target) ∧ levelWait w x p = (some d, p + d)) ∨
    ((∀ d ≤ w.timeout, x (p + d) ≠ w.target) ∧ levelWait w x p = (none, p + (w.timeout + 1))) := by
  by_cases h : ∃ d, d ≤ w.timeout ∧ x (p + d) = w.target
  · obtain ⟨hd, hx⟩ := Nat.find_spec h
    have hbefore : ∀ j < Nat.find h, x (p + j) ≠ w.target := fun j hj hj' => Nat.find_min h hj ⟨by omega, hj'⟩
    exact .inl ⟨Nat.find h, hd, hx, hbefore, levelWait_seen hd hx hbefore⟩
  · have hnever : ∀ d ≤ w.timeout, x (p + d) ≠ w.target := fun d hd hx => h ⟨d, hd, hx⟩
    exact .inr ⟨hnever, levelWait_timedOut hnever⟩

end Sys2Proof.Machine
end

section
/-! PROOFS. The per-tick machine carries out the functional `Decode()` and `ITERATE` (spec/41_frame_decoder.md rules R61, R73
and R77, spec/43_control_loop.md rule R92): each wait of the machine is one call of Level-Wait, and each stage is one branch of
the functional form. -/

namespace Sys2Proof.Machine

/-! ### The functional form, branch by branch -/

/-- Stage 5 on the outcome of stage 4 (R61). -/
def frameResult : Except Cause FrameWord × Nat → Except Cause Byte × Nat
  | (.error c, z) => (.error c, z)
  | (.ok f, z) => (checkFrame f, z)

theorem frameResult_tick (r : Except Cause FrameWord × Nat) : (frameResult r).2 = r.2 := by
  obtain ⟨r | r, z⟩ := r <;> rfl

section ReadBits

variable {x : Nat → Level} {left : Nat} {i : BitVec 5} {p t u d d' : Nat} {f : FrameWord}

theorem readBits_lowTimeout (h : levelWait ⟨.high, 1000⟩ x p = (none, t)) :
    readBits x (left + 1) i p f = (.error (.bitLowTimeout i), t) := by
  simp only [readBits, h]

theorem readBits_highTimeout (h : levelWait ⟨.high, 1000⟩ x p = (some d, t))
    (h' : levelWait ⟨.low, 2500⟩ x t = (none, u)) :
    readBits x (left + 1) i p f = (.error (.bitHighTimeout i), u) := by
  simp only [readBits, h, h']

theorem readBits_short (h : levelWait ⟨.high, 1000⟩ x p = (some d, t))
    (h' : levelWait ⟨.low, 2500⟩ x t = (some d', u)) (hd : d' < 200) :
    readBits x (left + 1) i p f = (.error (.bitShort i), u) := by
  simp only [readBits, h, h', (bitTooShort_iff d').2 hd, if_true]

theorem readBits_bit (h : levelWait ⟨.high, 1000⟩ x p = (some d, t))
    (h' : levelWait ⟨.low, 2500⟩ x t = (some d', u)) (hd : 200 ≤ d') :
    readBits x (left + 1) i p f = readBits x left (i + 1#5) u (replaceBit f i (classifyBit d')) := by
  have hlong : ¬ bitTooShort d' = true := by rw [bitTooShort_iff]; omega
  simp only [readBits, h, h', if_neg hlong]

/-- Each bit takes at most 3500 ticks, and a timeout ends one tick past its wait (R77). -/
theorem readBits_bounds (x : Nat → Level) (left : Nat) (i : BitVec 5) (p : Nat) (f : FrameWord) :
    p ≤ (readBits x left i p f).2 ∧ (readBits x left i p f).2 ≤ p + 3500 * left + 1 := by
  induction left generalizing i p f with
  | zero => exact ⟨Nat.le_refl p, Nat.le_succ p⟩
  | succ left ih =>
    rcases levelWait_cases ⟨.high, 1000⟩ x p with ⟨d, hd, -, -, h⟩ | ⟨-, h⟩
    · rcases levelWait_cases ⟨.low, 2500⟩ x (p + d) with ⟨d', hd', -, -, h'⟩ | ⟨-, h'⟩
      · dsimp only at hd hd'
        by_cases hshort : d' < 200
        · rw [readBits_short h h' hshort]
          exact ⟨by dsimp only; omega, by dsimp only; omega⟩
        · rw [readBits_bit h h' (by omega)]
          obtain ⟨hlo, hhi⟩ := ih (i + 1#5) (p + d + d') (replaceBit f i (classifyBit d'))
          exact ⟨by omega, by omega⟩
      · dsimp only at hd
        rw [readBits_highTimeout h h']
        exact ⟨by dsimp only; omega, by dsimp only; omega⟩
    · rw [readBits_lowTimeout h]
      exact ⟨by dsimp only; omega, by dsimp only; omega⟩

/-- A bit whose low part ends at tick `t` is not resolved before. -/
theorem readBits_ge_of_low (h : levelWait ⟨.high, 1000⟩ x p = (some d, t)) : t ≤ (readBits x (left + 1) i p f).2 := by
  rcases levelWait_cases ⟨.low, 2500⟩ x t with ⟨d', -, -, -, h'⟩ | ⟨-, h'⟩
  · by_cases hshort : d' < 200
    · rw [readBits_short h h' hshort]
      exact Nat.le_add_right t d'
    · rw [readBits_bit h h' (by omega)]
      exact Nat.le_trans (Nat.le_add_right t d') (readBits_bounds _ _ _ _ _).1
  · rw [readBits_highTimeout h h']
    exact Nat.le_add_right t _

end ReadBits

section DecodeAttempt

variable {x : Nat → Level} {f : FrameWord} {s t u v d g n : Nat}

theorem decodeAttempt_edgeTimeout (h : levelWait ⟨.low, 150000⟩ x s = (none, t)) :
    decodeAttempt x f s = (.error .edgeTimeout, t) := by
  simp only [decodeAttempt, h]

theorem decodeAttempt_leadTimeout (h : levelWait ⟨.low, 150000⟩ x s = (some n, t))
    (h' : levelWait ⟨.high, 12000⟩ x t = (none, u)) : decodeAttempt x f s = (.error .leadTimeout, u) := by
  simp only [decodeAttempt, h, h']

theorem decodeAttempt_leadWindow (h : levelWait ⟨.low, 150000⟩ x s = (some n, t))
    (h' : levelWait ⟨.high, 12000⟩ x t = (some d, u)) (hd : ¬ (8000 ≤ d ∧ d ≤ 10000)) :
    decodeAttempt x f s = (.error .leadWindow, u) := by
  rw [← leadInWindow_iff, Bool.not_eq_true] at hd
  simp only [decodeAttempt, h, h', hd, Bool.not_false, if_true]

theorem decodeAttempt_spaceTimeout (h : levelWait ⟨.low, 150000⟩ x s = (some n, t))
    (h' : levelWait ⟨.high, 12000⟩ x t = (some d, u)) (hd : 8000 ≤ d ∧ d ≤ 10000)
    (h'' : levelWait ⟨.low, 7000⟩ x u = (none, v)) : decodeAttempt x f s = (.error .spaceTimeout, v) := by
  simp only [decodeAttempt, h, h', (leadInWindow_iff d).2 hd, Bool.not_true, Bool.false_eq_true, if_false, h'']

theorem decodeAttempt_spaceWindow (h : levelWait ⟨.low, 150000⟩ x s = (some n, t))
    (h' : levelWait ⟨.high, 12000⟩ x t = (some d, u)) (hd : 8000 ≤ d ∧ d ≤ 10000)
    (h'' : levelWait ⟨.low, 7000⟩ x u = (some g, v)) (hg : ¬ (3500 ≤ g ∧ g ≤ 5000)) :
    decodeAttempt x f s = (.error .spaceWindow, v) := by
  rw [← spaceInWindow_iff, Bool.not_eq_true] at hg
  simp only [decodeAttempt, h, h', (leadInWindow_iff d).2 hd, Bool.not_true, Bool.false_eq_true, if_false, h'', hg,
    Bool.not_false, if_true]

theorem decodeAttempt_bits (h : levelWait ⟨.low, 150000⟩ x s = (some n, t))
    (h' : levelWait ⟨.high, 12000⟩ x t = (some d, u)) (hd : 8000 ≤ d ∧ d ≤ 10000)
    (h'' : levelWait ⟨.low, 7000⟩ x u = (some g, v)) (hg : 3500 ≤ g ∧ g ≤ 5000) :
    decodeAttempt x f s = frameResult (readBits x 32 0#5 v f) := by
  simp only [decodeAttempt, h, h', (leadInWindow_iff d).2 hd, Bool.not_true, Bool.false_eq_true, if_false, h'',
    (spaceInWindow_iff g).2 hg]
  generalize readBits x 32 0#5 v f = r
  obtain ⟨r | r, z⟩ := r <;> rfl

/-- What is left of an attempt at the end of an accepted lead pulse: a space of at most 5000 ticks and 32 bits (R77). -/
theorem decodeAttempt_bounds_of_lead (h : levelWait ⟨.low, 150000⟩ x s = (some n, t))
    (h' : levelWait ⟨.high, 12000⟩ x t = (some d, u)) (hd : 8000 ≤ d ∧ d ≤ 10000) :
    u ≤ (decodeAttempt x f s).2 ∧ (decodeAttempt x f s).2 ≤ u + 117001 := by
  rcases levelWait_cases ⟨.low, 7000⟩ x u with ⟨g, hto, -, -, h''⟩ | ⟨-, h''⟩
  · by_cases hg : 3500 ≤ g ∧ g ≤ 5000
    · rw [decodeAttempt_bits h h' hd h'' hg, frameResult_tick]
      obtain ⟨hlo, hhi⟩ := readBits_bounds x 32 0#5 (u + g) f
      omega
    · rw [decodeAttempt_spaceWindow h h' hd h'' hg]
      dsimp only at hto ⊢
      omega
  · rw [decodeAttempt_spaceTimeout h h' hd h'']
    dsimp only
    omega

/-- What is left of an attempt at its lead edge, where the line is low: a lead pulse of 1 to 10000 ticks, or a timeout. -/
theorem decodeAttempt_bounds_of_edge (h : levelWait ⟨.low, 150000⟩ x s = (some n, t)) (hx : x t = .low) :
    t + 1 ≤ (decodeAttempt x f s).2 ∧ (decodeAttempt x f s).2 ≤ t + 127001 := by
  rcases levelWait_cases ⟨.high, 12000⟩ x t with ⟨d, hto, hd0, -, h'⟩ | ⟨-, h'⟩
  · have hpos : d ≠ 0 := fun h0 => by rw [h0, Nat.add_zero, hx] at hd0; cases hd0
    by_cases hd : 8000 ≤ d ∧ d ≤ 10000
    · obtain ⟨hlo, hhi⟩ := decodeAttempt_bounds_of_lead (f := f) h h' hd
      omega
    · rw [decodeAttempt_leadWindow h h' hd]
      dsimp only at hto ⊢
      omega
  · rw [decodeAttempt_leadTimeout h h']
    dsimp only
    omega

/-- An attempt takes 1 to 277001 ticks (R77). -/
theorem decodeAttempt_bounds (x : Nat → Level) (f : FrameWord) (s : Nat) :
    s + 1 ≤ (decodeAttempt x f s).2 ∧ (decodeAttempt x f s).2 ≤ s + 277001 := by
  rcases levelWait_cases ⟨.low, 150000⟩ x s with ⟨n, hn, hx, -, h⟩ | ⟨-, h⟩
  · obtain ⟨hlo, hhi⟩ := decodeAttempt_bounds_of_edge (f := f) h hx
    dsimp only at hn
    omega
  · rw [decodeAttempt_edgeTimeout h]
    dsimp only
    omega

end DecodeAttempt

/-! ### A wait of the machine is a call of Level-Wait -/

/-- Counted from the start `s₀` of an attempt: `s` is in the wait `w`, which began at tick `p` with no event since `s₀`; it has
counted no tick, or the one of its beginning, which did not show its target. -/
structure WaitBegun (s₀ : State) (p : Nat) (w : Wait) (s : State) : Prop where
  run : quietRun (p + s.e.toNat) s₀ s
  wait : waitOf s.phase = some w
  inTime : s.e.toNat ≤ w.timeout
  before : ∀ j < s.e.toNat, s₀.lineAt (p + j) ≠ w.target
  idle : s.idle = s₀.idle
  speed : s.speed = s₀.speed

/-- The machine is at tick `n` of the attempt with no event so far, and its step there hands `d` to the stage of `s`. -/
def Hands (s₀ : State) (n : Nat) (d : Option Nat) (s : State) : Prop :=
  noResetFor (n + 1) s₀ → ∃ v k, quietRun n s₀ v ∧ step v = resolveWait d (quietAfter k s)

/-- A wait hands on the result of Level-Wait at its resolve tick (R59, R61, R73). -/
theorem WaitBegun.hands {s₀ s : State} {p : Nat} {w : Wait} (h : WaitBegun s₀ p w s) :
    (∃ d ≤ w.timeout, s.e.toNat ≤ d ∧ s₀.lineAt (p + d) = w.target ∧ levelWait w s₀.lineAt p = (some d, p + d) ∧
      Hands s₀ (p + d) (some d) s) ∨
    (levelWait w s₀.lineAt p = (none, p + (w.timeout + 1)) ∧ Hands s₀ (p + (w.timeout + 1)) none s) := by
  have hpins : ∀ j, s.pinsAt j = s₀.pinsAt (p + (s.e.toNat + j)) := fun j => by
    rw [pinsAt_of_runsTo h.run.1, Nat.add_assoc]
  rcases levelWait_cases w s₀.lineAt p with ⟨d, hd, hx, hbefore, hwait⟩ | ⟨hnever, hwait⟩
  · have hed : s.e.toNat ≤ d := Nat.le_of_not_lt fun hlt => h.before d hlt hx
    refine .inl ⟨d, hd, hed, hx, hwait, fun hr => ?_⟩
    obtain ⟨k, rfl⟩ := Nat.exists_eq_add_of_le hed
    have hl : ∀ j < k, (s.pinsAt j).rst = false ∧ (s.pinsAt j).ir ≠ w.target := fun j hj => by
      rw [hpins]
      exact ⟨hr _ (by omega), hbefore _ (by omega)⟩
    have hk : s.pinsAt k = ⟨false, w.target⟩ := by
      rw [hpins, ← hr (p + (s.e.toNat + k)) (by omega), ← hx]
      rfl
    obtain ⟨-, hstep⟩ := wait_resolves_seen h.wait hd hl hk
    refine ⟨waited k s, k + 1, ?_, hstep⟩
    rw [← Nat.add_assoc]
    exact runsThrough_add h.run (quietRun_waited h.wait (by omega) hl)
  · refine .inr ⟨hwait, fun hr => ?_⟩
    obtain ⟨k, hk⟩ := Nat.exists_eq_add_of_le (Nat.le_succ_of_le h.inTime)
    have hk : w.timeout + 1 = s.e.toNat + k := hk
    rw [hk] at hr ⊢
    have hl : ∀ j < k, (s.pinsAt j).rst = false ∧ (s.pinsAt j).ir ≠ w.target := fun j hj => by
      rw [hpins]
      exact ⟨hr _ (by omega), hnever _ (by omega)⟩
    have hlow : (s.pinsAt k).rst = false := by rw [hpins]; exact hr _ (by omega)
    obtain ⟨-, hstep⟩ := wait_resolves_timedOut h.wait hk.symm hl hlow
    refine ⟨waited k s, k + 1, ?_, hstep⟩
    rw [← Nat.add_assoc]
    exact runsThrough_add h.run (quietRun_waited h.wait (by omega) hl)

/-- A stage that enters the next wait begins it at the resolve tick, which counts as its first (R57(c), R73). -/
theorem WaitBegun.enters {s₀ s : State} {p n : Nat} {w w' : Wait} {d : Option Nat} {q : Phase} {b : BitVec 5} {f : FrameWord}
    (h : WaitBegun s₀ p w s) (hands : Hands s₀ n d s) (hr : noResetFor (n + 1) s₀) (hw' : waitOf q = some w')
    (hto : 1 ≤ w'.timeout) (hx : s₀.lineAt n ≠ w'.target)
    (hstage : ∀ k, resolveWait d (quietAfter k s) = .next (enterWait q (setBitIdx b (setFrame f (quietAfter k s))))) :
    ∃ s', WaitBegun s₀ n w' s' ∧ s'.phase = q ∧ s'.bitIdx = b ∧ s'.frame = f := by
  obtain ⟨v, k, hrun, hstep⟩ := hands hr
  rw [hstage k] at hstep
  refine ⟨enterWait q (setBitIdx b (setFrame f (quietAfter k s))),
    ⟨runsThrough_add hrun (runsThrough_one hstep ⟨rfl, rfl, rfl⟩), hw', hto, fun j hj => ?_, h.idle, h.speed⟩,
    rfl, rfl, rfl⟩
  obtain rfl : j = 0 := Nat.lt_one_iff.1 hj
  exact hx

/-! ### The end of an attempt -/

/-- The state after the resolve tick of an attempt with this result. -/
def endAttempt (r : Except Cause Byte) (s : State) : State :=
  match r with
  | .ok c => finished c s
  | .error c => abortAttempt c s

theorem endAttempt_dec (r : Except Cause Byte) (s : State) : (endAttempt r s).dec = some (resultEvent r) := by
  cases r with
  | ok c => rfl
  | error c => exact abortAttempt_dec c s

/-- Stage 5 of the machine is stage 5 of the functional form (R61, R73). -/
theorem checksumStage_eq_endAttempt (f : FrameWord) {s : State} (hact : s.act = none) :
    checksumStage f s = .next (endAttempt (checkFrame f) s) := by
  cases hf : decodeFrame f with
  | ok i =>
    rw [checksumStage_accepts hf, finishAttempt_eq_finished hf hact]
    simp only [checkFrame, hf, endAttempt]
  | error r => cases r <;> simp only [checksumStage, checkFrame, hf, endAttempt]

/-- The attempt that starts at `s₀` ends with the result and at the tick that `r` names, with no event before. -/
def Ends (s₀ : State) (r : Except Cause Byte × Nat) : Prop :=
  noResetFor (r.2 + 1) s₀ → ∃ v q, quietRun r.2 s₀ v ∧ step v = .next (endAttempt r.1 q) ∧ quiet q ∧
    q.idle = s₀.idle ∧ q.speed = s₀.speed

theorem WaitBegun.ends {s₀ s : State} {p n : Nat} {w : Wait} {d : Option Nat} {f : FrameWord} {r : Except Cause Byte}
    (h : WaitBegun s₀ p w s) (hands : Hands s₀ n d s)
    (hstage : ∀ k, resolveWait d (quietAfter k s) = .next (endAttempt r (setFrame f (quietAfter k s)))) :
    Ends s₀ (r, n) := by
  intro hr
  obtain ⟨v, k, hrun, hstep⟩ := hands hr
  exact ⟨v, _, hrun, hstep.trans (hstage k), ⟨rfl, rfl, rfl⟩, h.idle, h.speed⟩

/-- The ticks up to the end of an attempt are ticks without reset. -/
theorem Ends.of_noReset {s₀ : State} {r : Except Cause Byte × Nat} {n : Nat} (hn : n ≤ r.2)
    (h : noResetFor (n + 1) s₀ → Ends s₀ r) : Ends s₀ r :=
  fun hr => h (noResetFor_mono (by omega) hr) hr

/-! ### Stage by stage -/

/-- One bit: its low part and its high part fail as the functional form fails, or the high part is measured (R65, R66). -/
theorem bit_ends {s₀ s : State} {p : Nat} (left : Nat) (h : WaitBegun s₀ p ⟨.high, 1000⟩ s) (hp : s.phase = .wBitLow)
    (measured : ∀ t u d s', WaitBegun s₀ t ⟨.low, 2500⟩ s' → s'.phase = .wBitHigh → s'.bitIdx = s.bitIdx →
      s'.frame = s.frame → 200 ≤ d → s₀.lineAt u = .low → Hands s₀ u (some d) s' →
      Ends s₀ (frameResult (readBits s₀.lineAt left (s.bitIdx + 1#5) u (replaceBit s.frame s.bitIdx (classifyBit d))))) :
    Ends s₀ (frameResult (readBits s₀.lineAt (left + 1) s.bitIdx p s.frame)) := by
  rcases h.hands with ⟨n, -, -, hx, hlow, hands⟩ | ⟨hlow, hands⟩
  · refine Ends.of_noReset (n := p + n) ?_ fun hr => ?_
    · rw [frameResult_tick]
      exact readBits_ge_of_low hlow
    obtain ⟨s', h', hp', hi', hf'⟩ := h.enters hands hr (q := .wBitHigh) (b := s.bitIdx) (f := s.frame) rfl (by decide)
      (by rw [hx]; decide) fun k => resolveWait_wBitLow (s := quietAfter k s) hp _
    rcases h'.hands with ⟨d, -, -, hx', hhigh, hands'⟩ | ⟨hhigh, hands'⟩
    · by_cases hd : d < 200
      · rw [readBits_short hlow hhigh hd]
        refine h'.ends hands' (f := s'.frame) fun k => ?_
        rw [resolveWait_wBitHigh (s := quietAfter k s') hp', bitHighStage_short hd, ← hi']
        rfl
      · rw [readBits_bit hlow hhigh (by omega)]
        exact measured _ _ d s' h' hp' hi' hf' (by omega) hx' hands'
    · rw [readBits_highTimeout hlow hhigh]
      refine h'.ends hands' (f := s'.frame) fun k => ?_
      rw [resolveWait_wBitHigh (s := quietAfter k s') hp', bitHighStage_timedOut, ← hi']
      rfl
  · rw [readBits_lowTimeout hlow]
    exact h.ends hands (f := s.frame) fun k => resolveWait_wBitLow (s := quietAfter k s) hp none

/-- Stage 4 with `left + 1` bits to read, and stage 5 after them (R65 to R71). -/
theorem readBits_ends {s₀ s : State} {p : Nat} (left : Nat) (h : WaitBegun s₀ p ⟨.high, 1000⟩ s) (hp : s.phase = .wBitLow)
    (hi : s.bitIdx.toNat + left = 31) :
    Ends s₀ (frameResult (readBits s₀.lineAt (left + 1) s.bitIdx p s.frame)) := by
  induction left generalizing p s with
  | zero =>
    refine bit_ends 0 h hp fun t u d s' h' hp' hi' hf' hd _ hands' => ?_
    have hlast : s'.bitIdx = 31#5 := by rw [hi']; exact BitVec.eq_of_toNat_eq hi
    refine h'.ends hands' (f := replaceBit s.frame s.bitIdx (classifyBit d)) fun k => ?_
    rw [resolveWait_wBitHigh (s := quietAfter k s') hp', bitHighStage_last (s := quietAfter k s') hd hlast, ← hi', ← hf']
    exact checksumStage_eq_endAttempt _ rfl
  | succ left ih =>
    refine bit_ends (left + 1) h hp fun t u d s' h' hp' hi' hf' hd hx hands' => ?_
    have hbelow : s'.bitIdx.toNat < 31 := by rw [hi']; omega
    have hnext : (s.bitIdx + 1#5).toNat = s.bitIdx.toNat + 1 := by rw [BitVec.toNat_add, BitVec.toNat_ofNat]; omega
    refine Ends.of_noReset (n := u) (by rw [frameResult_tick]; exact (readBits_bounds _ _ _ _ _).1) fun hr => ?_
    obtain ⟨s'', h'', hp'', hi'', hf''⟩ := h'.enters hands' hr (q := .wBitLow) (b := s.bitIdx + 1#5)
      (f := replaceBit s.frame s.bitIdx (classifyBit d)) (w' := ⟨.high, 1000⟩) rfl (by decide) (by rw [hx]; decide)
      fun k => by
        rw [resolveWait_wBitHigh (s := quietAfter k s') hp', bitHighStage_next (s := quietAfter k s') hd hbelow, ← hi',
          ← hf']
        rfl
    rw [← hi'', ← hf'']
    exact ih h'' hp'' (by rw [hi'', hnext]; omega)

/-- Stage 3 and what follows it (R64). -/
theorem space_ends {s₀ s : State} {n t d u : Nat} (hedge : levelWait ⟨.low, 150000⟩ s₀.lineAt 0 = (some n, t))
    (hlead : levelWait ⟨.high, 12000⟩ s₀.lineAt t = (some d, u)) (hd : 8000 ≤ d ∧ d ≤ 10000)
    (h : WaitBegun s₀ u ⟨.low, 7000⟩ s) (hp : s.phase = .wSpace) (hf : s.frame = s₀.frame) :
    Ends s₀ (decodeAttempt s₀.lineAt s₀.frame 0) := by
  rcases h.hands with ⟨g, -, -, hx, hspace, hands⟩ | ⟨hspace, hands⟩
  · by_cases hg : 3500 ≤ g ∧ g ≤ 5000
    · rw [decodeAttempt_bits hedge hlead hd hspace hg]
      refine Ends.of_noReset (n := u + g) (by rw [frameResult_tick]; exact (readBits_bounds _ _ _ _ _).1) fun hr => ?_
      obtain ⟨s', h', hp', hi', hf'⟩ := h.enters hands hr (q := .wBitLow) (b := 0#5) (f := s.frame) (w' := ⟨.high, 1000⟩)
        rfl (by decide) (by rw [hx]; decide) fun k => by
          rw [resolveWait_wSpace (s := quietAfter k s) hp, spaceStage_measured, if_pos hg]
          rfl
      rw [← hf, ← hf', ← hi']
      exact readBits_ends 31 h' hp' (by rw [hi']; rfl)
    · rw [decodeAttempt_spaceWindow hedge hlead hd hspace hg]
      refine h.ends hands (f := s.frame) fun k => ?_
      rw [resolveWait_wSpace (s := quietAfter k s) hp, spaceStage_measured, if_neg hg]
      rfl
  · rw [decodeAttempt_spaceTimeout hedge hlead hd hspace]
    exact h.ends hands (f := s.frame) fun k => resolveWait_wSpace (s := quietAfter k s) hp none

/-- Stage 2 and what follows it (R63). -/
theorem lead_ends {s₀ s : State} {n t : Nat} (hedge : levelWait ⟨.low, 150000⟩ s₀.lineAt 0 = (some n, t))
    (h : WaitBegun s₀ t ⟨.high, 12000⟩ s) (hp : s.phase = .wLead) (hf : s.frame = s₀.frame) :
    Ends s₀ (decodeAttempt s₀.lineAt s₀.frame 0) := by
  rcases h.hands with ⟨d, -, -, hx, hlead, hands⟩ | ⟨hlead, hands⟩
  · by_cases hd : 8000 ≤ d ∧ d ≤ 10000
    · refine Ends.of_noReset (n := t + d) ?_ fun hr => ?_
      · exact (decodeAttempt_bounds_of_lead hedge hlead hd).1
      obtain ⟨s', h', hp', -, hf'⟩ := h.enters hands hr (q := .wSpace) (b := s.bitIdx) (f := s.frame) (w' := ⟨.low, 7000⟩)
        rfl (by decide) (by rw [hx]; decide) fun k => by
          rw [resolveWait_wLead (s := quietAfter k s) hp, leadStage_measured, if_pos hd]
          rfl
      exact space_ends hedge hlead hd h' hp' (hf'.trans hf)
    · rw [decodeAttempt_leadWindow hedge hlead hd]
      refine h.ends hands (f := s.frame) fun k => ?_
      rw [resolveWait_wLead (s := quietAfter k s) hp, leadStage_measured, if_neg hd]
      rfl
  · rw [decodeAttempt_leadTimeout hedge hlead]
    exact h.ends hands (f := s.frame) fun k => resolveWait_wLead (s := quietAfter k s) hp none

/-- From its start an attempt of the machine ends as `Decode()` does (R61, R73). -/
theorem decodeAttempt_ends {s : State} (hs : atAttemptStart s) : Ends s (decodeAttempt s.lineAt s.frame 0) := by
  obtain ⟨hp, he, -⟩ := hs
  have hedge : WaitBegun s 0 ⟨.low, 150000⟩ s := {
    run := by rw [he]; exact runsThrough_zero s
    wait := by rw [hp]; rfl
    inTime := by rw [he]; decide
    before := fun j hj => by rw [he] at hj; exact absurd hj (Nat.not_lt_zero j)
    idle := rfl
    speed := rfl }
  rcases hedge.hands with ⟨n, -, -, hx, hwait, hands⟩ | ⟨hwait, hands⟩
  · refine Ends.of_noReset (n := 0 + n) ?_ fun hr => ?_
    · exact Nat.le_of_succ_le (decodeAttempt_bounds_of_edge hwait hx).1
    obtain ⟨s', h', hp', -, hf'⟩ := hedge.enters hands hr (q := .wLead) (b := s.bitIdx) (f := s.frame)
      (w' := ⟨.high, 12000⟩) rfl (by decide) (by rw [hx]; decide) fun k => resolveWait_wEdge (s := quietAfter k s) hp _
    exact lead_ends hwait h' hp' hf'
  · rw [decodeAttempt_edgeTimeout hwait]
    exact hedge.ends hands (f := s.frame) fun k => resolveWait_wEdge (s := quietAfter k s) hp none

/-! ### The obligations on one attempt -/

/-- Settles O43: the attempt ends as `Decode()` does, and an abort leaves the label of its cause. -/
theorem machineRefinesDecode : Obligations.MachineRefinesDecode := by
  intro s hs hr
  obtain ⟨v, q, hrun, hstep, -⟩ := decodeAttempt_ends hs hr
  refine ⟨v, _, hrun.1, hstep, endAttempt_dec _ q, fun c hc => ?_, hrun.2⟩
  rw [hc]
  exact abortAttempt_cause c q

/-- Settles O45: the resolve tick of `Decode()` is the one. -/
theorem attemptResolvesWithin277001Ticks : Obligations.AttemptResolvesWithin277001Ticks := by
  intro s hs hr
  obtain ⟨hlo, hhi⟩ := decodeAttempt_bounds s.lineAt s.frame 0
  obtain ⟨v, q, hrun, hstep, -⟩ := decodeAttempt_ends hs (noResetFor_mono (by omega) hr)
  refine ⟨_, _, by omega, by omega, runsTo_last hrun.1 hstep, ?_, fun k w h1 hk hw => (hrun.2 k w h1 hk hw).1⟩
  rw [endAttempt_dec]
  exact Option.some_ne_none _

/-! ### One iteration of the Control Loop -/

/-- An iteration whose attempt reads a code (R92, R93). -/
theorem iterate_ok {x : Nat → Level} {f : FrameWord} {idle s t : Nat} {speed : Duty} {c : Byte}
    (h : decodeAttempt x f s = (.ok c, t)) :
    iterate x f idle speed s =
      { resolve := t, dec := .ok c, act := actuationOf (decodeCommand c) speed
        note := some ⟨notedAction (decodeCommand c), c⟩
        idle := 0, speed := speedAfter (decodeCommand c) speed, start := t + 1 } := by
  simp only [iterate, h]

/-- An iteration whose attempt is the 801st failure (R92, R95). -/
theorem iterate_forces_stop {x : Nat → Level} {f : FrameWord} {idle s t : Nat} {speed : Duty} {c : Cause}
    (h : decodeAttempt x f s = (.error c, t)) (hlimit : 800 < idle + 1) :
    iterate x f idle speed s =
      { resolve := t, dec := .fail, act := some ⟨.stop, 0#16⟩, note := none, idle := 0, speed := speed
        start := t + 1 } := by
  have hlimit' : Config.profile.idleLimit < idle + 1 := hlimit
  simp only [iterate, h, if_pos hlimit']
  rfl

/-- An iteration whose attempt is any failure before (R92, R94, R96). -/
theorem iterate_pauses {x : Nat → Level} {f : FrameWord} {idle s t : Nat} {speed : Duty} {c : Cause}
    (h : decodeAttempt x f s = (.error c, t)) (hlimit : idle + 1 ≤ 800) :
    iterate x f idle speed s =
      { resolve := t, dec := .fail, act := none, note := none, idle := idle + 1, speed := speed
        start := t + 1 + 1000 } := by
  have hlimit' : ¬ Config.profile.idleLimit < idle + 1 := Nat.not_lt.2 hlimit
  simp only [iterate, h, if_neg hlimit']

/-- A run without an event but at its `(n + 1)`-th tick, and then `m` ticks more without one. -/
theorem quiet_but_resolve {n m : Nat} {s v u t : State} (hrun : quietRun n s v) (hstep : step v = .next u)
    (hrest : quietRun m u t) {k : Nat} {w : State} (h1 : 1 ≤ k) (hk : k ≤ n + 1 + m) (hne : k ≠ n + 1)
    (hw : RunsTo k s w) : quiet w := by
  rcases Nat.lt_or_gt_of_ne hne with hlt | hgt
  · exact hrun.2 k w h1 (by omega) hw
  · obtain ⟨j, rfl⟩ := Nat.exists_eq_add_of_lt hgt
    exact hrest.2 (j + 1) w (by omega) (by omega) (runsTo_rest (runsTo_last hrun.1 hstep) hw)

/-- Settles O44: the end of the attempt, and after a failure with pause the ticks of the pause. -/
theorem machineRefinesIterate : Obligations.MachineRefinesIterate := by
  rintro s r rfl hs hidle hr
  have hends := decodeAttempt_ends hs
  cases hdec : decodeAttempt s.lineAt s.frame 0 with | mk result n
  rw [hdec] at hends
  cases result with
  | ok c =>
    rw [iterate_ok hdec] at hr ⊢
    obtain ⟨v, q, hrun, hstep, -, hqi, hqs⟩ := hends hr
    refine ⟨v, _, _, hrun.1, hstep, rfl, ?_, rfl, fun k w h1 hk hne hw => ?_, runsTo_last hrun.1 hstep, ⟨rfl, rfl, rfl⟩,
      rfl, ?_⟩
    · show actuationOf _ q.speed = _
      rw [hqs]
    · exact quiet_but_resolve hrun hstep (runsThrough_zero _) h1 hk hne hw
    · show speedAfter _ q.speed = _
      rw [hqs]
  | error c =>
    by_cases hlimit : s.idle.toNat + 1 ≤ 800
    · rw [iterate_pauses hdec hlimit] at hr ⊢
      obtain ⟨v, q, hrun, hstep, ⟨hqd, hqa, hqn⟩, hqi, hqs⟩ := hends (noResetFor_mono (by dsimp only; omega) hr)
      rw [endAttempt, abortAttempt_pauses (by rw [hqi]; exact hlimit)] at hstep
      have hpause := quietRun_pause rfl (show 1 ≤ (1000#10).toNat by decide)
        (noResetFor_of_runsTo (runsTo_last hrun.1 hstep) hr)
      refine ⟨v, _, _, hrun.1, hstep, rfl, hqa, hqn, fun k w h1 hk hne hw => ?_,
        runsTo_add (runsTo_last hrun.1 hstep) hpause.1, ⟨rfl, rfl, rfl⟩, ?_, hqs⟩
      · exact quiet_but_resolve hrun hstep hpause h1 hk hne hw
      · show (q.idle + 1#10).toNat = s.idle.toNat + 1
        rw [hqi, BitVec.toNat_add, BitVec.toNat_ofNat]
        omega
    · rw [iterate_forces_stop hdec (by omega)] at hr ⊢
      obtain ⟨v, q, hrun, hstep, ⟨hqd, hqa, hqn⟩, hqi, hqs⟩ := hends hr
      rw [endAttempt, abortAttempt_forces_stop (by rw [hqi]; omega)] at hstep
      refine ⟨v, _, _, hrun.1, hstep, rfl, rfl, hqn, fun k w h1 hk hne hw => ?_, runsTo_last hrun.1 hstep,
        ⟨rfl, rfl, rfl⟩, rfl, hqs⟩
      exact quiet_but_resolve hrun hstep (runsThrough_zero _) h1 hk hne hw

/-! ### A line that stays high -/

/-- With the line high an attempt times out in stage 1 (R62). -/
theorem decodeAttempt_of_high {x : Nat → Level} (hx : ∀ n, x n = .high) (f : FrameWord) :
    decodeAttempt x f 0 = (.error .edgeTimeout, 150001) :=
  decodeAttempt_edgeTimeout (levelWait_timedOut fun _ _ => by rw [hx]; decide)

section IdleLine

variable {s : State}

/-- With the line high and fewer than 800 failures counted, an iteration takes 151002 ticks, counts one more and does not
actuate (R94, R96). -/
theorem idle_iteration_pauses (hs : atAttemptStart s) (hline : ∀ n, s.pinsAt n = ⟨false, .high⟩)
    (hidle : s.idle.toNat + 1 ≤ 800) :
    ∃ t, RunsThrough (·.act = none) 151002 s t ∧ atAttemptStart t ∧ t.idle.toNat = s.idle.toNat + 1 := by
  have hdec : decodeAttempt s.lineAt s.frame 0 = (.error .edgeTimeout, 150001) :=
    decodeAttempt_of_high (fun n => by rw [State.lineAt, hline]) _
  obtain ⟨t, u, v, hrun, hstep, -, hact, -, hquiet, hend, hv, hvi, -⟩ :=
    machineRefinesIterate s _ (iterate_pauses hdec hidle).symm hs (by omega) fun j _ => by rw [hline]
  refine ⟨v, ⟨hend, fun k w h1 hk hw => ?_⟩, hv, hvi⟩
  by_cases hne : k = 150001 + 1
  · subst hne
    rw [← runsTo_unique (runsTo_last hrun hstep) hw]
    exact hact
  · exact (hquiet k w h1 hk hne hw).2.1

/-- With the line high and 800 failures counted, the resolve tick of the attempt forces the stop (R95). -/
theorem idle_iteration_forces_stop (hs : atAttemptStart s) (hline : ∀ n, s.pinsAt n = ⟨false, .high⟩)
    (hidle : s.idle.toNat = 800) :
    ∃ t u, RunsThrough (·.act = none) 150001 s t ∧ step t = .next u ∧ u.act = some ⟨.stop, 0#16⟩ ∧ u.note = none ∧
      u.idle = 0#10 ∧ atAttemptStart u := by
  have hdec : decodeAttempt s.lineAt s.frame 0 = (.error .edgeTimeout, 150001) :=
    decodeAttempt_of_high (fun n => by rw [State.lineAt, hline]) _
  obtain ⟨t, u, v, hrun, hstep, -, hact, hnote, hquiet, hend, hv, hvi, -⟩ :=
    machineRefinesIterate s _ (iterate_forces_stop hdec (by omega)).symm hs (by omega) fun j _ => by rw [hline]
  obtain rfl := runsTo_unique (runsTo_last hrun hstep) hend
  refine ⟨t, u, ⟨hrun, fun k w h1 hk hw => ?_⟩, hstep, hact, hnote, BitVec.eq_of_toNat_eq hvi, hv⟩
  exact (hquiet k w h1 (Nat.le_succ_of_le hk) (Nat.ne_of_lt (Nat.lt_succ_of_le hk)) hw).2.1

/-- With the line high the first 800 failures take 151002 ticks each, and none of them actuates. -/
theorem idle_iterations_pause (hs : atAttemptStart s) (hline : ∀ n, s.pinsAt n = ⟨false, .high⟩) (hidle : s.idle = 0#10)
    {m : Nat} (hm : m ≤ 800) :
    ∃ t, RunsThrough (·.act = none) (151002 * m) s t ∧ atAttemptStart t ∧ t.idle.toNat = m := by
  induction m with
  | zero => exact ⟨s, runsThrough_zero s, hs, by rw [hidle]; rfl⟩
  | succ m ih =>
    obtain ⟨t, hrun, ht, hti⟩ := ih (by omega)
    obtain ⟨u, hrun', hu, hui⟩ := idle_iteration_pauses ht (fun n => by rw [pinsAt_of_runsTo hrun.1, hline]) (by omega)
    exact ⟨u, runsThrough_add hrun hrun', hu, by omega⟩

end IdleLine

/-- Settles O48: 800 failures with a pause, then 150001 ticks of the next attempt and its resolve tick. -/
theorem idleLineForcesStopAtTick120951601 : Obligations.IdleLineForcesStopAtTick120951601 := by
  intro s hs hidle hline
  obtain ⟨t, hrun, ht, hti⟩ := idle_iterations_pause hs hline hidle (Nat.le_refl 800)
  obtain ⟨v, u, hrun', hstep, hact, hnote, hui, hu⟩ :=
    idle_iteration_forces_stop ht (fun n => by rw [pinsAt_of_runsTo hrun.1, hline]) hti
  have hall := runsThrough_add hrun hrun'
  have htick : 151002 * 800 + 150001 + 1 = 120951602 := by norm_num
  refine ⟨⟨u, ?_, hact, hnote, hui, hu⟩, fun k w h1 hk hw => hall.2 k w h1 (by omega) hw⟩
  rw [← htick]
  exact runsTo_last hall.1 hstep

end Sys2Proof.Machine
end

section
/-! PROOFS. What stood in the frame register at the start of an attempt never shows (spec/41_frame_decoder.md rule R74): the
machine is followed from a state and from the same state with another frame, and the two frames agree on the bits this attempt
has read, which are all 32 when stage 5 looks. -/

namespace Sys2Proof.Machine

/-! ### The bits an attempt has read -/

/-- In stage 4 the frames of `s` and `g` agree on the bits below the one being read; in the other phases no bit counts. -/
def AgreeOnRead (s : State) (g : FrameWord) : Prop :=
  s.phase = .wBitLow ∨ s.phase = .wBitHigh → ∀ j < s.bitIdx.toNat, g.getLsbD j = s.frame.getLsbD j

theorem agreeOnRead_self (s : State) : AgreeOnRead s s.frame :=
  fun _ _ _ => rfl

theorem agreeOnRead_of_phase {s : State} {g : FrameWord} {p : Phase} (hp : s.phase = p) (hlow : p ≠ .wBitLow)
    (hhigh : p ≠ .wBitHigh) : AgreeOnRead s g :=
  fun h => absurd (hp ▸ h) (not_or.2 ⟨hlow, hhigh⟩)

/-- Writing the bit being read into both frames makes them agree up to it. -/
theorem replaceBit_agree {f g : FrameWord} {i : BitVec 5} (h : ∀ j < i.toNat, g.getLsbD j = f.getLsbD j) (b : Bool) :
    ∀ j < i.toNat + 1, (replaceBit g i b).getLsbD j = (replaceBit f i b).getLsbD j := by
  intro j hj
  have hi := i.isLt
  rw [getLsbD_replaceBit g i b (by omega), getLsbD_replaceBit f i b (by omega)]
  split
  · rfl
  · exact h j (by omega)

/-! ### One tick of the two machines -/

/-- The failure path neither reads nor writes the frame (R105). -/
theorem abortAttempt_setFrame (c : Cause) (g : FrameWord) (s : State) :
    abortAttempt c (setFrame g s) = setFrame g (abortAttempt c s) := by
  by_cases h : s.idle.toNat + 1 ≤ 800
  · rw [abortAttempt_pauses h, abortAttempt_pauses (s := setFrame g s) h]
    rfl
  · rw [abortAttempt_forces_stop (Nat.lt_of_not_le h), abortAttempt_forces_stop (s := setFrame g s) (Nat.lt_of_not_le h)]
    rfl

theorem agreeOnRead_abortAttempt (c : Cause) (s : State) (g : FrameWord) : AgreeOnRead (abortAttempt c s) g := by
  rcases abortAttempt_cases c s with ⟨-, -, -, hp, -⟩ | ⟨-, -, -, hp, -⟩
  all_goals exact agreeOnRead_of_phase hp (by decide) (by decide)

/-- If the first outcome is a next state, then so is the second, and it is the same but for the frame, which agrees on the
bits read. -/
def SameButFrame (o o' : Host.Outcome State Fault Refusal) : Prop :=
  ∀ t, o = .next t → ∃ g, o' = .next (setFrame g t) ∧ AgreeOnRead t g

theorem sameButFrame_refl (o : Host.Outcome State Fault Refusal) : SameButFrame o o :=
  fun t h => ⟨t.frame, h, agreeOnRead_self t⟩

theorem sameButFrame_next {t : State} {g : FrameWord} (hg : AgreeOnRead t g) :
    SameButFrame (.next t) (.next (setFrame g t)) := by
  intro t' h
  injection h with h
  exact h ▸ ⟨g, rfl, hg⟩

theorem sameButFrame_abortAttempt (c : Cause) (s : State) (g : FrameWord) :
    SameButFrame (.next (abortAttempt c s)) (.next (abortAttempt c (setFrame g s))) := by
  rw [abortAttempt_setFrame]
  exact sameButFrame_next (agreeOnRead_abortAttempt c s g)

/-- A measured high part: below bit 31 both frames take the bit, at bit 31 they have become one frame (R67, R68). -/
theorem bitHighStage_sameButFrame {s : State} {g : FrameWord} (hg : ∀ j < s.bitIdx.toNat, g.getLsbD j = s.frame.getLsbD j)
    (d : Nat) : SameButFrame (bitHighStage (some d) s) (bitHighStage (some d) (setFrame g s)) := by
  have hagree := replaceBit_agree hg (classifyBit d)
  by_cases hd : d < 200
  · rw [bitHighStage_short hd, bitHighStage_short hd]
    exact sameButFrame_abortAttempt _ s g
  · by_cases hi : s.bitIdx.toNat < 31
    · rw [bitHighStage_next (by omega) hi, bitHighStage_next (s := setFrame g s) (by omega) hi]
      refine sameButFrame_next (g := replaceBit g s.bitIdx (classifyBit d)) fun _ j hj => hagree j ?_
      have hnext : j < (s.bitIdx + 1#5).toNat := hj
      rw [BitVec.toNat_add, BitVec.toNat_ofNat] at hnext
      omega
    · have hlast : s.bitIdx.toNat = 31 := by have := s.bitIdx.isLt; omega
      have hbit : s.bitIdx = 31#5 := BitVec.eq_of_toNat_eq hlast
      have hframe : frameWithBit d (setFrame g s) = frameWithBit d s :=
        BitVec.eq_of_getLsbD_eq fun j hj => hagree j (by omega)
      rw [bitHighStage_last (by omega) hbit, bitHighStage_last (s := setFrame g s) (by omega) hbit, hframe]
      exact sameButFrame_refl _

/-- A wait that resolves, stage by stage: only stage 4 touches the frame, and stage 3 leaves no bit read. -/
theorem resolveWait_sameButFrame {s : State} {w : Wait} {g : FrameWord} (hw : waitOf s.phase = some w) (hg : AgreeOnRead s g)
    (d : Option Nat) : SameButFrame (resolveWait d s) (resolveWait d (setFrame g s)) := by
  cases hp : s.phase with
  | gap => rw [hp] at hw; cases hw
  | wEdge =>
    rw [resolveWait_wEdge hp, resolveWait_wEdge (s := setFrame g s) hp]
    cases d with
    | none => exact sameButFrame_abortAttempt _ s g
    | some d => exact sameButFrame_next (agreeOnRead_of_phase (p := .wLead) rfl (by decide) (by decide))
  | wLead =>
    rw [resolveWait_wLead hp, resolveWait_wLead (s := setFrame g s) hp]
    cases d with
    | none => exact sameButFrame_abortAttempt _ s g
    | some d =>
      rw [leadStage_measured, leadStage_measured]
      split
      · exact sameButFrame_next (agreeOnRead_of_phase (p := .wSpace) rfl (by decide) (by decide))
      · exact sameButFrame_abortAttempt _ s g
  | wSpace =>
    rw [resolveWait_wSpace hp, resolveWait_wSpace (s := setFrame g s) hp]
    cases d with
    | none => exact sameButFrame_abortAttempt _ s g
    | some d =>
      rw [spaceStage_measured, spaceStage_measured]
      split
      · exact sameButFrame_next fun _ j hj => absurd hj (Nat.not_lt_zero j)
      · exact sameButFrame_abortAttempt _ s g
  | wBitLow =>
    rw [resolveWait_wBitLow hp, resolveWait_wBitLow (s := setFrame g s) hp]
    cases d with
    | none => exact sameButFrame_abortAttempt _ s g
    | some d => exact sameButFrame_next fun _ => hg (.inl hp)
  | wBitHigh =>
    rw [resolveWait_wBitHigh hp, resolveWait_wBitHigh (s := setFrame g s) hp]
    cases d with
    | none => exact sameButFrame_abortAttempt _ s g
    | some d => exact bitHighStage_sameButFrame (hg (.inr hp)) d

/-- A tick of a wait that does not resolve, with an elapsed count inside its register. -/
theorem step_counts {s : State} {w : Wait} (hw : waitOf s.phase = some w) (hr : s.pins.rst = false)
    (hne : s.e.toNat ≠ w.timeout + 1) (hx : s.e.toNat ≤ w.timeout → s.pins.ir ≠ w.target) (hlt : s.e.toNat + 1 < 2 ^ 18) :
    step s = .next (setE (BitVec.ofNat 18 (s.e.toNat + 1)) (quietAfter 1 s)) := by
  by_cases he : s.e.toNat ≤ w.timeout
  · exact step_waits hw he hr (hx he)
  · have hwaiting : levelWaitTick w s.e.toNat s.pins.ir = .waiting := by
      rw [levelWaitTick, if_neg fun h => he h.1, if_neg hne]
    rw [step_of_no_reset hr]
    simp only [sequencerTick, clearOutputs_phase, advancePins_phase, hw, clearOutputs_e, advancePins_e, hwaiting]
    exact stayWaiting_next hlt

/-- A tick that answers keeps the two machines alike. -/
theorem step_sameButFrame {s t : State} {g : FrameWord} (hg : AgreeOnRead s g) (h : step s = .next t) :
    SameButFrame (step s) (step (setFrame g s)) := by
  rcases step_cases h with ⟨hr, -⟩ | ⟨hr, hp, -⟩ | ⟨w, hw, hr, ⟨hne, hx, hlt, -⟩ | ⟨he, hx, -⟩ | ⟨he, -⟩⟩
  · rw [step_of_reset hr, step_of_reset (s := setFrame g s) hr]
    exact sameButFrame_refl _
  · rw [step_gap hr hp, step_gap (s := setFrame g s) hr hp]
    show SameButFrame _ (if s.gap = 1#10 then _ else if s.gap = 0#10 then _ else _)
    split
    · exact sameButFrame_next (agreeOnRead_of_phase (p := .wEdge) rfl (by decide) (by decide))
    · split
      · exact fun _ h => nomatch h
      · exact sameButFrame_next (agreeOnRead_of_phase (p := .gap) hp (by decide) (by decide))
  · rw [step_counts hw hr hne hx hlt, step_counts (s := setFrame g s) hw hr hne hx hlt]
    exact sameButFrame_next hg
  · have hpins := pins_eq_of_no_reset hr hx
    rw [step_seen hw he hpins, step_seen (s := setFrame g s) hw he hpins]
    exact resolveWait_sameButFrame (s := quietAfter 1 s) hw hg _
  · rw [step_timedOut hw he hr, step_timedOut (s := setFrame g s) hw he hr]
    exact resolveWait_sameButFrame (s := quietAfter 1 s) hw hg _

/-! ### Runs -/

theorem runsTo_sameButFrame {n : Nat} {s t : State} {g : FrameWord} (hg : AgreeOnRead s g) (h : RunsTo n s t) :
    ∃ g', RunsTo n (setFrame g s) (setFrame g' t) := by
  induction n generalizing s g with
  | zero =>
    obtain rfl := runsTo_unique h (runsTo_zero s)
    exact ⟨g, runsTo_zero _⟩
  | succ n ih =>
    obtain ⟨u, hstep, hrun⟩ := runsTo_succ_inv h
    obtain ⟨g', hstep', hg'⟩ := step_sameButFrame hg hstep u hstep
    obtain ⟨g'', hrun'⟩ := ih hg' hrun
    exact ⟨g'', runsTo_succ hstep' hrun'⟩

/-- Settles O46: in stage 1 no bit is read yet, so any two frames agree on the bits read. -/
theorem oldFrameNeverReachesAnOutput : Obligations.OldFrameNeverReachesAnOutput := by
  intro s t f n hp h
  obtain ⟨g, hrun⟩ := runsTo_sameButFrame (g := f) (agreeOnRead_of_phase hp (by decide) (by decide)) h
  exact ⟨setFrame g t, hrun, rfl, rfl⟩

end Sys2Proof.Machine
end

section
/-! PROOFS. The round trip on the wire (spec/41_frame_decoder.md rule R76): an accepted pulse train is followed part by part
through the stages of an attempt, each bit putting the bit of the sent frame into its place, up to the tick that runs the
instruction. -/

namespace Sys2Proof.Machine

/-! ### States inside an attempt -/

/-- The state `n` ticks after `s`, at the second tick of the wait of phase `q`, with no event on the way (R73). -/
def midAttempt (n : Nat) (q : Phase) (i : BitVec 5) (f : FrameWord) (s : State) : State :=
  { quietAfter n s with phase := q, e := 1#18, bitIdx := i, frame := f }

/-- From inside an attempt to a later wait of it. -/
theorem midAttempt_midAttempt (m n : Nat) (q q' : Phase) (i i' : BitVec 5) (f f' : FrameWord) (s : State) :
    midAttempt n q' i' f' (midAttempt m q i f s) = midAttempt (m + n) q' i' f' s := by
  unfold midAttempt
  rw [← quietAfter_quietAfter]
  rfl

/-! ### The parts of a train -/

/-- A part of `d` ticks begins at tick `p` of `s`, and the machine is past the first of them: the wait that measures it sees the
other `d - 1`, and then the first tick of the next part. -/
theorem part_of_carries {s r : State} {p d m : Nat} {l l' : Level} {rest : Train} (hrun : RunsTo (p + 1) s r) (hd : 1 ≤ d)
    (hm : 1 ≤ m) (h : carries (advanceBy p s) ((l, d) :: (l', m) :: rest)) :
    lineHolds l (d - 1) r ∧ r.pinsAt (d - 1) = ⟨false, l'⟩ ∧ carries (advanceBy (p + d) s) ((l', m) :: rest) := by
  obtain ⟨hpart, hnext⟩ := h
  rw [advanceBy_advanceBy] at hnext
  refine ⟨fun j hj => ?_, ?_, hnext⟩
  · have hpins := hpart (j + 1) (by omega)
    rw [pinsAt_advanceBy] at hpins
    rw [pinsAt_of_runsTo hrun, Nat.add_assoc, Nat.add_comm 1 j]
    exact hpins
  · have hpins := hnext.1 0 (by omega)
    rw [pinsAt_advanceBy] at hpins
    rw [pinsAt_of_runsTo hrun, show p + 1 + (d - 1) = p + d by omega]
    exact hpins

/-- What follows a bit cell is a low part: the next cell's, or the terminating low. -/
theorem cells_begin_low {lo hi : Nat → Nat} {i n : Nat} (hlo : ∀ k < i + n, 1 ≤ lo k) :
    ∃ m rest, 1 ≤ m ∧ bitCells lo hi i n ++ [(.low, 1)] = (.low, m) :: rest := by
  cases n with
  | zero => exact ⟨1, [], Nat.le_refl 1, rfl⟩
  | succ n => exact ⟨lo i, _, hlo i (by omega), rfl⟩

/-! ### The stages on their parts -/

section Stages

variable {s : State} {p d m : Nat} {i : BitVec 5} {f : FrameWord} {rest : Train}

/-- A lead pulse in its window. -/
theorem lead_runs (hrun : RunsTo (p + 1) s (midAttempt (p + 1) .wLead i f s)) (hd : 8000 ≤ d ∧ d ≤ 10000) (hm : 1 ≤ m)
    (h : carries (advanceBy p s) ((.low, d) :: (.high, m) :: rest)) :
    RunsTo (p + d + 1) s (midAttempt (p + d + 1) .wSpace i f s) ∧ carries (advanceBy (p + d) s) ((.high, m) :: rest) := by
  obtain ⟨hline, hend, hrest⟩ := part_of_carries hrun (by omega) hm h
  have hstage := (leadStageChecksItsWindow _ rfl rfl).1 d (by omega) (by omega) hline hend
  rw [if_pos hd] at hstage
  refine ⟨?_, hrest⟩
  rw [Nat.add_right_comm, ← midAttempt_midAttempt (p + 1) d .wLead .wSpace i i f f s]
  exact runsTo_add hrun hstage

/-- A space in its window: bit 0 is the next to be read. -/
theorem space_runs (hrun : RunsTo (p + 1) s (midAttempt (p + 1) .wSpace i f s)) (hd : 3500 ≤ d ∧ d ≤ 5000) (hm : 1 ≤ m)
    (h : carries (advanceBy p s) ((.high, d) :: (.low, m) :: rest)) :
    RunsTo (p + d + 1) s (midAttempt (p + d + 1) .wBitLow 0#5 f s) ∧
      carries (advanceBy (p + d) s) ((.low, m) :: rest) := by
  obtain ⟨hline, hend, hrest⟩ := part_of_carries hrun (by omega) hm h
  have hstage := (spaceStageChecksItsWindow _ rfl rfl).1 d (by omega) (by omega) hline hend
  rw [if_pos hd] at hstage
  refine ⟨?_, hrest⟩
  rw [Nat.add_right_comm, ← midAttempt_midAttempt (p + 1) d .wSpace .wBitLow i 0#5 f f s]
  exact runsTo_add hrun hstage

/-- The low part of a bit. -/
theorem bitLow_runs (hrun : RunsTo (p + 1) s (midAttempt (p + 1) .wBitLow i f s)) (hd : 1 ≤ d ∧ d ≤ 1000) (hm : 1 ≤ m)
    (h : carries (advanceBy p s) ((.low, d) :: (.high, m) :: rest)) :
    RunsTo (p + d + 1) s (midAttempt (p + d + 1) .wBitHigh i f s) ∧
      carries (advanceBy (p + d) s) ((.high, m) :: rest) := by
  obtain ⟨hline, hend, hrest⟩ := part_of_carries hrun (by omega) hm h
  have hstage := (bitLowStagePassesOrTimesOut _ rfl rfl).1 d (by omega) (by omega) hline hend
  refine ⟨?_, hrest⟩
  rw [Nat.add_right_comm, ← midAttempt_midAttempt (p + 1) d .wBitLow .wBitHigh i i f f s]
  exact runsTo_add hrun hstage

/-- The high part of a bit below 31. -/
theorem bitHigh_runs (hrun : RunsTo (p + 1) s (midAttempt (p + 1) .wBitHigh i f s)) (hd : 200 ≤ d ∧ d ≤ 2500)
    (hi : i.toNat < 31) (hm : 1 ≤ m) (h : carries (advanceBy p s) ((.high, d) :: (.low, m) :: rest)) :
    RunsTo (p + d + 1) s (midAttempt (p + d + 1) .wBitLow (i + 1#5) (replaceBit f i (decide (1200 < d))) s) ∧
      carries (advanceBy (p + d) s) ((.low, m) :: rest) := by
  obtain ⟨hline, hend, hrest⟩ := part_of_carries hrun (by omega) hm h
  obtain ⟨-, hstage, -⟩ := (bitHighStageMeasuresTheBit _ rfl rfl).1 d (by omega) (by omega) hline hend
  refine ⟨?_, hrest⟩
  rw [Nat.add_right_comm, ← midAttempt_midAttempt (p + 1) d .wBitHigh .wBitLow i (i + 1#5) f _ s]
  exact runsTo_add hrun (hstage (by omega) hi)

/-- The high part of bit 31, up to the tick that resolves it, whose step is stage 5 on the whole frame. -/
theorem lastBitHigh_runs (hrun : RunsTo (p + 1) s (midAttempt (p + 1) .wBitHigh 31#5 f s)) (hd : 200 ≤ d ∧ d ≤ 2500)
    (hm : 1 ≤ m) (h : carries (advanceBy p s) ((.high, d) :: (.low, m) :: rest)) :
    ∃ t, RunsTo (p + d) s t ∧ step t = checksumStage (replaceBit f 31#5 (decide (1200 < d)))
      (midAttempt (p + d + 1) .wBitHigh 31#5 (replaceBit f 31#5 (decide (1200 < d))) s) := by
  obtain ⟨hline, hend, -⟩ := part_of_carries hrun (by omega) hm h
  obtain ⟨-, -, hstage⟩ := (bitHighStageMeasuresTheBit _ rfl rfl).1 d (by omega) (by omega) hline hend
  obtain ⟨t, ht, hstep⟩ := hstage (by omega) rfl
  refine ⟨t, ?_, ?_⟩
  · rw [show p + d = p + 1 + (d - 1) by omega]
    exact runsTo_add hrun ht
  · rw [hstep, Nat.add_right_comm, ← midAttempt_midAttempt (p + 1) d .wBitHigh .wBitHigh 31#5 31#5 f _ s]
    rfl

end Stages

/-! ### The 32 bits -/

/-- The cells of a train that sends the frame `w`: the durations the decoder accepts for each bit (R65 to R67). -/
def SendsFrame (w : FrameWord) (lo hi : Nat → Nat) : Prop :=
  ∀ k < 32, 1 ≤ lo k ∧ lo k ≤ 1000 ∧
    (if w.getLsbD k then 1201 ≤ hi k ∧ hi k ≤ 2500 else 200 ≤ hi k ∧ hi k ≤ 1200)

section SendsFrame

variable {w f : FrameWord} {lo hi : Nat → Nat} {k : Nat}

/-- An accepted high part is measured as the bit it sends. -/
theorem SendsFrame.high (h : SendsFrame w lo hi) (hk : k < 32) :
    200 ≤ hi k ∧ hi k ≤ 2500 ∧ decide (1200 < hi k) = w.getLsbD k := by
  obtain ⟨-, -, hbit⟩ := h k hk
  cases hw : w.getLsbD k with
  | true =>
    rw [hw, if_pos rfl] at hbit
    exact ⟨by omega, by omega, decide_eq_true (by omega)⟩
  | false =>
    rw [hw, if_neg (by decide)] at hbit
    exact ⟨by omega, by omega, decide_eq_false (by omega)⟩

/-- Putting bit `k` of `w` in its place makes a frame that has the bits of `w` below `k` have the bits up to `k`. -/
theorem replaceBit_extends (hk : k < 32) (hf : ∀ j < k, f.getLsbD j = w.getLsbD j) :
    ∀ j < k + 1, (replaceBit f (BitVec.ofNat 5 k) (w.getLsbD k)).getLsbD j = w.getLsbD j := by
  intro j hj
  have hidx : (BitVec.ofNat 5 k).toNat = k := by rw [BitVec.toNat_ofNat]; omega
  rw [getLsbD_replaceBit f _ _ (by omega), hidx]
  split
  · rw [‹j = k›]
  · exact hf j (by omega)

/-- The low part of bit `k`, and what the line carries from its high part on. -/
theorem cell_low_runs {s : State} {p left : Nat} {i : BitVec 5} (h : SendsFrame w lo hi) (hk : k + left = 31)
    (hrun : RunsTo (p + 1) s (midAttempt (p + 1) .wBitLow i f s))
    (hline : carries (advanceBy p s) (bitCells lo hi k (left + 1) ++ [(.low, 1)])) :
    RunsTo (p + lo k + 1) s (midAttempt (p + lo k + 1) .wBitHigh i f s) ∧
      ∃ m rest, 1 ≤ m ∧ bitCells lo hi (k + 1) left ++ [(.low, 1)] = (.low, m) :: rest ∧
        carries (advanceBy (p + lo k) s) ((.high, hi k) :: (.low, m) :: rest) := by
  obtain ⟨hlo, hlo', -⟩ := h k (by omega)
  obtain ⟨hhigh, -, -⟩ := h.high (k := k) (by omega)
  obtain ⟨m, rest, hm, hcells⟩ := cells_begin_low (lo := lo) (hi := hi) (i := k + 1) (n := left)
    fun j hj => (h j (by omega)).1
  have hcell : bitCells lo hi k (left + 1) ++ [(.low, 1)] = (.low, lo k) :: (.high, hi k) :: (.low, m) :: rest := by
    rw [← hcells]
    rfl
  rw [hcell] at hline
  obtain ⟨hrun', hline'⟩ := bitLow_runs hrun ⟨hlo, hlo'⟩ (by omega) hline
  exact ⟨hrun', m, rest, hm, hcells, hline'⟩

/-- A whole cell below bit 31: its bit is in the frame, and the next cell follows. -/
theorem cell_runs {s : State} {p left : Nat} (h : SendsFrame w lo hi) (hk : k + (left + 1) = 31)
    (hrun : RunsTo (p + 1) s (midAttempt (p + 1) .wBitLow (BitVec.ofNat 5 k) f s))
    (hline : carries (advanceBy p s) (bitCells lo hi k (left + 1 + 1) ++ [(.low, 1)])) :
    RunsTo (p + lo k + hi k + 1) s (midAttempt (p + lo k + hi k + 1) .wBitLow (BitVec.ofNat 5 (k + 1))
      (replaceBit f (BitVec.ofNat 5 k) (w.getLsbD k)) s) ∧
      carries (advanceBy (p + lo k + hi k) s) (bitCells lo hi (k + 1) (left + 1) ++ [(.low, 1)]) := by
  obtain ⟨hmin, hmax, hbit⟩ := h.high (k := k) (by omega)
  obtain ⟨hrun', m, rest, hm, hcells, hline'⟩ := cell_low_runs h hk hrun hline
  have hidx : (BitVec.ofNat 5 k).toNat < 31 := by rw [BitVec.toNat_ofNat]; omega
  rw [hcells, BitVec.ofNat_add, ← hbit]
  exact bitHigh_runs hrun' ⟨hmin, hmax⟩ hidx hm hline'

/-- The cell of bit 31, up to the tick that resolves it. -/
theorem last_cell_runs {s : State} {p : Nat} (h : SendsFrame w lo hi)
    (hrun : RunsTo (p + 1) s (midAttempt (p + 1) .wBitLow 31#5 f s)) (hf : ∀ j < 31, f.getLsbD j = w.getLsbD j)
    (hline : carries (advanceBy p s) (bitCells lo hi 31 1 ++ [(.low, 1)])) :
    ∃ t, RunsTo (p + lo 31 + hi 31) s t ∧
      step t = checksumStage w (midAttempt (p + lo 31 + hi 31 + 1) .wBitHigh 31#5 w s) := by
  obtain ⟨hmin, hmax, hbit⟩ := h.high (k := 31) (by omega)
  obtain ⟨hrun', m, rest, hm, -, hline'⟩ := cell_low_runs h rfl hrun hline
  have hframe : replaceBit f 31#5 (decide (1200 < hi 31)) = w :=
    BitVec.eq_of_getLsbD_eq fun j hj => by rw [hbit]; exact replaceBit_extends (k := 31) (by omega) hf j hj
  have hlast := lastBitHigh_runs hrun' ⟨hmin, hmax⟩ hm hline'
  rwa [hframe] at hlast

theorem sum_bitCells_succ (lo hi : Nat → Nat) (k n : Nat) :
    ((bitCells lo hi k (n + 1)).map Prod.snd).sum = lo k + hi k + ((bitCells lo hi (k + 1) n).map Prod.snd).sum := by
  simp only [bitCells, List.map_cons, List.sum_cons, Nat.add_assoc]

/-- The cells from bit `k` on are read into the frame, and the tick that resolves bit 31 hands the sent frame to stage 5. -/
theorem cells_run {s : State} {p left : Nat} (h : SendsFrame w lo hi) (hk : k + left = 31)
    (hrun : RunsTo (p + 1) s (midAttempt (p + 1) .wBitLow (BitVec.ofNat 5 k) f s)) (hf : ∀ j < k, f.getLsbD j = w.getLsbD j)
    (hline : carries (advanceBy p s) (bitCells lo hi k (left + 1) ++ [(.low, 1)])) :
    ∃ t, RunsTo (p + ((bitCells lo hi k (left + 1)).map Prod.snd).sum) s t ∧
      step t = checksumStage w
        (midAttempt (p + ((bitCells lo hi k (left + 1)).map Prod.snd).sum + 1) .wBitHigh 31#5 w s) := by
  induction left generalizing k p f with
  | zero =>
    obtain rfl : k = 31 := hk
    rw [sum_bitCells_succ, ← Nat.add_assoc, ← Nat.add_assoc]
    exact last_cell_runs h hrun hf hline
  | succ left ih =>
    obtain ⟨hrun', hline'⟩ := cell_runs h hk hrun hline
    rw [sum_bitCells_succ, ← Nat.add_assoc, ← Nat.add_assoc]
    exact ih (by omega) hrun' (replaceBit_extends (by omega) hf) hline'

end SendsFrame

/-! ### The obligation -/

/-- Settles O47: stage by stage to bit 31, and then the dispatch of the frame that was sent. -/
theorem pulseTrainRunsItsInstruction : Obligations.PulseTrainRunsItsInstruction := by
  intro s a i a0 lead space lo hi hs hwf ha0 hlead hlead' hspace hspace' hsends hline
  obtain ⟨hp, he, -⟩ := hs
  have hsends : SendsFrame (encodeFrame a i) lo hi := hsends
  obtain ⟨hhigh, hline⟩ := hline
  have hedge : s.pinsAt a0 = ⟨false, .low⟩ := by
    rw [← Nat.add_zero a0, ← pinsAt_advanceBy]
    exact hline.1 0 (by omega)
  have hrun : RunsTo (a0 + 1) s (midAttempt (a0 + 1) .wLead s.bitIdx s.frame s) :=
    (edgeStagePassesOrTimesOut s hp he).1 a0 ha0 hhigh hedge
  obtain ⟨hrun, hline⟩ := lead_runs hrun ⟨hlead, hlead'⟩ (by omega) hline
  obtain ⟨hlo, -, -⟩ := hsends 0 (by omega)
  obtain ⟨hrun, hline⟩ := space_runs hrun ⟨hspace, hspace'⟩ hlo hline
  obtain ⟨t, ht, hstep⟩ := cells_run (k := 0) (left := 31) hsends rfl hrun (fun j hj => absurd hj (Nat.not_lt_zero j)) hline
  generalize a0 + lead + space + ((bitCells lo hi 0 32).map Prod.snd).sum = n at ht hstep ⊢
  have hcode : commandByte (encodeFrame a i) = encode i := commandByte_necFrame a (encode i)
  have hdispatch := checksumStage_dispatches (decodeFrame_encodeFrame a hwf)
    { quietAfter (n + 1) s with phase := .wBitHigh, bitIdx := 31#5, frame := encodeFrame a i }
  rw [hcode] at hdispatch
  obtain ⟨u, hexec, hstage⟩ := hdispatch
  refine ⟨t, u, ht, hexec, ?_⟩
  rw [hstep, ← hstage]
  exact checksumStage_setE (encodeFrame a i) 1#18
    { quietAfter (n + 1) s with phase := .wBitHigh, bitIdx := 31#5, frame := encodeFrame a i }

end Sys2Proof.Machine
end
